-- ==== Sys2Proof/Word.lean ====
section
/-! DEFINITION. The word types of the CHIP-8 block: bytes, 16-bit words and register numbers. -/

namespace Sys2Proof

/-- An 8-bit unsigned value: a general register, a timer, a memory cell (10_state.md R15, R22, R23). -/
abbrev Byte := BitVec 8

/-- A 16-bit unsigned value: PC, I, a stack entry, an instruction word (10_state.md R18, R20, R21). -/
abbrev Word := BitVec 16

/-- A 12-bit address operand `nnn` (30_encoding.md R45). -/
abbrev Addr := BitVec 12

/-- The number of a general register, V0 to VF (10_state.md R15). -/
abbrev Reg := Fin 16

/-- The number of a key, 0 to 15 (00_scope.md R10). -/
abbrev Key := Fin 16

/-- VF, the general register that is also the flag (10_state.md R16). -/
abbrev VF : Reg := 15

end Sys2Proof
end

