-- ==== Sys2Proof/Syntax.lean ====
section
/-! DEFINITION. The 34 instructions of 30_encoding.md R49, one constructor per row, in the table's order. -/

namespace Sys2Proof

/-- An instruction with its decoded operands (30_encoding.md R45, R49). The docstring of each constructor is the
row's opcode pattern and its syntax (R52). -/
inductive Instr where
  /-- 00E0, `CLS`. -/
  | cls
  /-- 00EE, `RET`. -/
  | ret
  /-- 1NNN, `JP nnn`. -/
  | jp (nnn : Addr)
  /-- 2NNN, `CALL nnn`. -/
  | call (nnn : Addr)
  /-- 3XNN, `SE Vx, nn`. -/
  | seByte (x : Reg) (nn : Byte)
  /-- 4XNN, `SNE Vx, nn`. -/
  | sneByte (x : Reg) (nn : Byte)
  /-- 5XY0, `SE Vx, Vy`. -/
  | seReg (x y : Reg)
  /-- 6XNN, `LD Vx, nn`. -/
  | ldByte (x : Reg) (nn : Byte)
  /-- 7XNN, `ADD Vx, nn`. -/
  | addByte (x : Reg) (nn : Byte)
  /-- 8XY0, `LD Vx, Vy`. -/
  | ldReg (x y : Reg)
  /-- 8XY1, `OR Vx, Vy`. -/
  | orReg (x y : Reg)
  /-- 8XY2, `AND Vx, Vy`. -/
  | andReg (x y : Reg)
  /-- 8XY3, `XOR Vx, Vy`. -/
  | xorReg (x y : Reg)
  /-- 8XY4, `ADD Vx, Vy`. -/
  | addReg (x y : Reg)
  /-- 8XY5, `SUB Vx, Vy`. -/
  | subReg (x y : Reg)
  /-- 8XY6, `SHR Vx, Vy`. -/
  | shr (x y : Reg)
  /-- 8XY7, `SUBN Vx, Vy`. -/
  | subn (x y : Reg)
  /-- 8XYE, `SHL Vx, Vy`. -/
  | shl (x y : Reg)
  /-- 9XY0, `SNE Vx, Vy`. -/
  | sneReg (x y : Reg)
  /-- ANNN, `LD I, nnn`. -/
  | ldI (nnn : Addr)
  /-- BNNN, `JP V0, nnn`. The row's fields are nnn and x, and x is the top nibble of nnn (30_encoding.md R47). -/
  | jpV0 (x : Reg) (nnn : Addr)
  /-- CXNN, `RND Vx, nn`. -/
  | rnd (x : Reg) (nn : Byte)
  /-- DXYN, `DRW Vx, Vy, n`. -/
  | drw (x y : Reg) (n : BitVec 4)
  /-- EX9E, `SKP Vx`. -/
  | skp (x : Reg)
  /-- EXA1, `SKNP Vx`. -/
  | sknp (x : Reg)
  /-- FX07, `LD Vx, DT`. -/
  | ldVxDT (x : Reg)
  /-- FX0A, `LD Vx, K`. -/
  | ldVxK (x : Reg)
  /-- FX15, `LD DT, Vx`. -/
  | ldDTVx (x : Reg)
  /-- FX18, `LD ST, Vx`. -/
  | ldSTVx (x : Reg)
  /-- FX1E, `ADD I, Vx`. -/
  | addI (x : Reg)
  /-- FX29, `LD F, Vx`. -/
  | ldF (x : Reg)
  /-- FX33, `LD B, Vx`. -/
  | ldB (x : Reg)
  /-- FX55, `LD [I], Vx`. -/
  | storeRegs (x : Reg)
  /-- FX65, `LD Vx, [I]`. -/
  | loadRegs (x : Reg)
  deriving DecidableEq, Repr

end Sys2Proof
end

