-- ==== Sys2Proof/WellFormed.lean ====
section
/-! DEFINITION. The one check on an instruction's operands that their types do not make already. -/

namespace Sys2Proof

/-- The top nibble of a 12-bit address, as a register number (30_encoding.md R47: "the high nibble of nnn"). -/
def topNibble (nnn : Addr) : Reg := (nnn.extractLsb' 8 4).toFin

/-- Whether an encoding exists for the instruction: BNNN's register is the top nibble of its address (30_encoding.md
R45: the fields overlap; R47). Every other row's operands are independent, and their types bound them. -/
def Instr.wf : Instr → Bool
  | .jpV0 x nnn => x == topNibble nnn
  | .cls | .ret | .jp _ | .call _ | .seByte _ _ | .sneByte _ _ | .seReg _ _ | .ldByte _ _ | .addByte _ _
  | .ldReg _ _ | .orReg _ _ | .andReg _ _ | .xorReg _ _ | .addReg _ _ | .subReg _ _ | .shr _ _ | .subn _ _
  | .shl _ _ | .sneReg _ _ | .ldI _ | .rnd _ _ | .drw _ _ _ | .skp _ | .sknp _ | .ldVxDT _ | .ldVxK _
  | .ldDTVx _ | .ldSTVx _ | .addI _ | .ldF _ | .ldB _ | .storeRegs _ | .loadRegs _ => true

end Sys2Proof
end

