-- ==== Sys2Proof/Decode.lean ====
section
/-! DEFINITION. The decoder (30_encoding.md R44 to R51), total and rejecting by name, then the encoder and the
opcode map of R49. -/

namespace Sys2Proof

/-- Why bytes are no instruction. -/
inductive Reject where
  /-- The word selects no row of the opcode map (30_encoding.md R50). -/
  | unknownOpcode
  /-- Fewer than two bytes: no word at all. The machine's fetch always reads two (40_cycle.md R53), so only a
  caller of `decode` on a short list sees this. -/
  | truncated
  deriving DecidableEq, Repr

/-! ## The fields of a word (30_encoding.md R45) -/

/-- `op = w[15:12]`. -/
def fieldOp (w : Word) : BitVec 4 := w.extractLsb' 12 4

/-- `x = w[11:8]`, a register number. -/
def fieldX (w : Word) : Reg := (w.extractLsb' 8 4).toFin

/-- `y = w[7:4]`, a register number. -/
def fieldY (w : Word) : Reg := (w.extractLsb' 4 4).toFin

/-- `n = w[3:0]`. -/
def fieldN (w : Word) : BitVec 4 := w.extractLsb' 0 4

/-- `nn = w[7:0]`. -/
def fieldNN (w : Word) : Byte := w.extractLsb' 0 8

/-- `nnn = w[11:0]`. -/
def fieldNNN (w : Word) : Addr := w.extractLsb' 0 12

/-! ## Dispatch (30_encoding.md R48) -/

/-- Family 0: the whole word selects the row. -/
def decodeSystem (w : Word) : Except Reject Instr :=
  if w = 0x00E0 then .ok .cls
  else if w = 0x00EE then .ok .ret
  else .error .unknownOpcode

/-- Family 8: the low nibble selects the row. -/
def decodeAlu (x y : Reg) (n : BitVec 4) : Except Reject Instr :=
  if n = 0x0 then .ok (.ldReg x y)
  else if n = 0x1 then .ok (.orReg x y)
  else if n = 0x2 then .ok (.andReg x y)
  else if n = 0x3 then .ok (.xorReg x y)
  else if n = 0x4 then .ok (.addReg x y)
  else if n = 0x5 then .ok (.subReg x y)
  else if n = 0x6 then .ok (.shr x y)
  else if n = 0x7 then .ok (.subn x y)
  else if n = 0xE then .ok (.shl x y)
  else .error .unknownOpcode

/-- Family E: the low byte selects the row. -/
def decodeKeySkip (x : Reg) (nn : Byte) : Except Reject Instr :=
  if nn = 0x9E then .ok (.skp x)
  else if nn = 0xA1 then .ok (.sknp x)
  else .error .unknownOpcode

/-- Family F: the low byte selects the row. -/
def decodeMisc (x : Reg) (nn : Byte) : Except Reject Instr :=
  if nn = 0x07 then .ok (.ldVxDT x)
  else if nn = 0x0A then .ok (.ldVxK x)
  else if nn = 0x15 then .ok (.ldDTVx x)
  else if nn = 0x18 then .ok (.ldSTVx x)
  else if nn = 0x1E then .ok (.addI x)
  else if nn = 0x29 then .ok (.ldF x)
  else if nn = 0x33 then .ok (.ldB x)
  else if nn = 0x55 then .ok (.storeRegs x)
  else if nn = 0x65 then .ok (.loadRegs x)
  else .error .unknownOpcode

/-- The row a word selects, with its operands, or the rejection of an unknown word (30_encoding.md R48, R50). -/
def decodeWord (w : Word) : Except Reject Instr :=
  if fieldOp w = 0x0 then decodeSystem w
  else if fieldOp w = 0x1 then .ok (.jp (fieldNNN w))
  else if fieldOp w = 0x2 then .ok (.call (fieldNNN w))
  else if fieldOp w = 0x3 then .ok (.seByte (fieldX w) (fieldNN w))
  else if fieldOp w = 0x4 then .ok (.sneByte (fieldX w) (fieldNN w))
  else if fieldOp w = 0x5 then
    if fieldN w = 0 then .ok (.seReg (fieldX w) (fieldY w)) else .error .unknownOpcode
  else if fieldOp w = 0x6 then .ok (.ldByte (fieldX w) (fieldNN w))
  else if fieldOp w = 0x7 then .ok (.addByte (fieldX w) (fieldNN w))
  else if fieldOp w = 0x8 then decodeAlu (fieldX w) (fieldY w) (fieldN w)
  else if fieldOp w = 0x9 then
    if fieldN w = 0 then .ok (.sneReg (fieldX w) (fieldY w)) else .error .unknownOpcode
  else if fieldOp w = 0xA then .ok (.ldI (fieldNNN w))
  else if fieldOp w = 0xB then .ok (.jpV0 (fieldX w) (fieldNNN w))
  else if fieldOp w = 0xC then .ok (.rnd (fieldX w) (fieldNN w))
  else if fieldOp w = 0xD then .ok (.drw (fieldX w) (fieldY w) (fieldN w))
  else if fieldOp w = 0xE then decodeKeySkip (fieldX w) (fieldNN w)
  else decodeMisc (fieldX w) (fieldNN w)

/-- The 16-bit word of two bytes, the first the high one (20_memory.md R34). -/
def wordOfBytes (hi lo : Byte) : Word := hi ++ lo

/-- The instruction at the head of a list of bytes, and the bytes after it. -/
def decode : List Byte → Except Reject (Instr × List Byte)
  | hi :: lo :: rest =>
    match decodeWord (wordOfBytes hi lo) with
    | .ok i => .ok (i, rest)
    | .error r => .error r
  | _ => .error .truncated

/-! ## The encoder -/

/-- A register number as the nibble of a word. -/
def nibble (x : Reg) : BitVec 4 := BitVec.ofFin x

/-- The word `op x nn` (30_encoding.md R45). -/
def wordXNN (op : BitVec 4) (x : Reg) (nn : Byte) : Word := op ++ nibble x ++ nn

/-- The word `op x y n` (30_encoding.md R45). -/
def wordXYN (op : BitVec 4) (x y : Reg) (n : BitVec 4) : Word := op ++ nibble x ++ nibble y ++ n

/-- The word `op nnn` (30_encoding.md R45). -/
def wordNNN (op : BitVec 4) (nnn : Addr) : Word := op ++ nnn

/-- The word of an instruction (30_encoding.md R49). BNNN's register is part of its address. -/
def encode : Instr → Word
  | .cls => 0x00E0
  | .ret => 0x00EE
  | .jp nnn => wordNNN 0x1 nnn
  | .call nnn => wordNNN 0x2 nnn
  | .seByte x nn => wordXNN 0x3 x nn
  | .sneByte x nn => wordXNN 0x4 x nn
  | .seReg x y => wordXYN 0x5 x y 0x0
  | .ldByte x nn => wordXNN 0x6 x nn
  | .addByte x nn => wordXNN 0x7 x nn
  | .ldReg x y => wordXYN 0x8 x y 0x0
  | .orReg x y => wordXYN 0x8 x y 0x1
  | .andReg x y => wordXYN 0x8 x y 0x2
  | .xorReg x y => wordXYN 0x8 x y 0x3
  | .addReg x y => wordXYN 0x8 x y 0x4
  | .subReg x y => wordXYN 0x8 x y 0x5
  | .shr x y => wordXYN 0x8 x y 0x6
  | .subn x y => wordXYN 0x8 x y 0x7
  | .shl x y => wordXYN 0x8 x y 0xE
  | .sneReg x y => wordXYN 0x9 x y 0x0
  | .ldI nnn => wordNNN 0xA nnn
  | .jpV0 _ nnn => wordNNN 0xB nnn
  | .rnd x nn => wordXNN 0xC x nn
  | .drw x y n => wordXYN 0xD x y n
  | .skp x => wordXNN 0xE x 0x9E
  | .sknp x => wordXNN 0xE x 0xA1
  | .ldVxDT x => wordXNN 0xF x 0x07
  | .ldVxK x => wordXNN 0xF x 0x0A
  | .ldDTVx x => wordXNN 0xF x 0x15
  | .ldSTVx x => wordXNN 0xF x 0x18
  | .addI x => wordXNN 0xF x 0x1E
  | .ldF x => wordXNN 0xF x 0x29
  | .ldB x => wordXNN 0xF x 0x33
  | .storeRegs x => wordXNN 0xF x 0x55
  | .loadRegs x => wordXNN 0xF x 0x65

/-- The two bytes of an instruction, in address order (20_memory.md R34). -/
def encodeBytes (i : Instr) : List Byte := [(encode i).extractLsb' 8 8, (encode i).extractLsb' 0 8]

/-! ## The opcode map as a table (30_encoding.md R49) -/

/-- One row of the opcode map: a word selects it when `w AND mask = value`. -/
structure OpcodeRow where
  pattern : String
  mask : Word
  value : Word
  deriving DecidableEq, Repr

/-- The row an instruction stands for. -/
def rowOf : Instr → OpcodeRow
  | .cls => ⟨"00E0", 0xFFFF, 0x00E0⟩
  | .ret => ⟨"00EE", 0xFFFF, 0x00EE⟩
  | .jp _ => ⟨"1NNN", 0xF000, 0x1000⟩
  | .call _ => ⟨"2NNN", 0xF000, 0x2000⟩
  | .seByte _ _ => ⟨"3XNN", 0xF000, 0x3000⟩
  | .sneByte _ _ => ⟨"4XNN", 0xF000, 0x4000⟩
  | .seReg _ _ => ⟨"5XY0", 0xF00F, 0x5000⟩
  | .ldByte _ _ => ⟨"6XNN", 0xF000, 0x6000⟩
  | .addByte _ _ => ⟨"7XNN", 0xF000, 0x7000⟩
  | .ldReg _ _ => ⟨"8XY0", 0xF00F, 0x8000⟩
  | .orReg _ _ => ⟨"8XY1", 0xF00F, 0x8001⟩
  | .andReg _ _ => ⟨"8XY2", 0xF00F, 0x8002⟩
  | .xorReg _ _ => ⟨"8XY3", 0xF00F, 0x8003⟩
  | .addReg _ _ => ⟨"8XY4", 0xF00F, 0x8004⟩
  | .subReg _ _ => ⟨"8XY5", 0xF00F, 0x8005⟩
  | .shr _ _ => ⟨"8XY6", 0xF00F, 0x8006⟩
  | .subn _ _ => ⟨"8XY7", 0xF00F, 0x8007⟩
  | .shl _ _ => ⟨"8XYE", 0xF00F, 0x800E⟩
  | .sneReg _ _ => ⟨"9XY0", 0xF00F, 0x9000⟩
  | .ldI _ => ⟨"ANNN", 0xF000, 0xA000⟩
  | .jpV0 _ _ => ⟨"BNNN", 0xF000, 0xB000⟩
  | .rnd _ _ => ⟨"CXNN", 0xF000, 0xC000⟩
  | .drw _ _ _ => ⟨"DXYN", 0xF000, 0xD000⟩
  | .skp _ => ⟨"EX9E", 0xF0FF, 0xE09E⟩
  | .sknp _ => ⟨"EXA1", 0xF0FF, 0xE0A1⟩
  | .ldVxDT _ => ⟨"FX07", 0xF0FF, 0xF007⟩
  | .ldVxK _ => ⟨"FX0A", 0xF0FF, 0xF00A⟩
  | .ldDTVx _ => ⟨"FX15", 0xF0FF, 0xF015⟩
  | .ldSTVx _ => ⟨"FX18", 0xF0FF, 0xF018⟩
  | .addI _ => ⟨"FX1E", 0xF0FF, 0xF01E⟩
  | .ldF _ => ⟨"FX29", 0xF0FF, 0xF029⟩
  | .ldB _ => ⟨"FX33", 0xF0FF, 0xF033⟩
  | .storeRegs _ => ⟨"FX55", 0xF0FF, 0xF055⟩
  | .loadRegs _ => ⟨"FX65", 0xF0FF, 0xF065⟩

/-- Whether a word selects a row. -/
def OpcodeRow.selects (r : OpcodeRow) (w : Word) : Bool := w &&& r.mask == r.value

/-- What each row reads from a word, in the order of R49 (its "fields used" column): 34 rows. -/
def opcodeRows : List (Word → Instr) :=
  [ fun _ => .cls,
    fun _ => .ret,
    fun w => .jp (fieldNNN w),
    fun w => .call (fieldNNN w),
    fun w => .seByte (fieldX w) (fieldNN w),
    fun w => .sneByte (fieldX w) (fieldNN w),
    fun w => .seReg (fieldX w) (fieldY w),
    fun w => .ldByte (fieldX w) (fieldNN w),
    fun w => .addByte (fieldX w) (fieldNN w),
    fun w => .ldReg (fieldX w) (fieldY w),
    fun w => .orReg (fieldX w) (fieldY w),
    fun w => .andReg (fieldX w) (fieldY w) ] ++
  [ fun w => .xorReg (fieldX w) (fieldY w),
    fun w => .addReg (fieldX w) (fieldY w),
    fun w => .subReg (fieldX w) (fieldY w),
    fun w => .shr (fieldX w) (fieldY w),
    fun w => .subn (fieldX w) (fieldY w),
    fun w => .shl (fieldX w) (fieldY w),
    fun w => .sneReg (fieldX w) (fieldY w),
    fun w => .ldI (fieldNNN w),
    fun w => .jpV0 (fieldX w) (fieldNNN w),
    fun w => .rnd (fieldX w) (fieldNN w),
    fun w => .drw (fieldX w) (fieldY w) (fieldN w),
    fun w => .skp (fieldX w) ] ++
  [ fun w => .sknp (fieldX w),
    fun w => .ldVxDT (fieldX w),
    fun w => .ldVxK (fieldX w),
    fun w => .ldDTVx (fieldX w),
    fun w => .ldSTVx (fieldX w),
    fun w => .addI (fieldX w),
    fun w => .ldF (fieldX w),
    fun w => .ldB (fieldX w),
    fun w => .storeRegs (fieldX w),
    fun w => .loadRegs (fieldX w) ]

/-! ## The host's reading of a table row's word -/

/-- The instruction the decoder reads from a word of `nbits` bits numbered as spec/opcode_table.json numbers them:
the word's two bytes are laid out as the hardware stores them, high byte first (20_memory.md R34). -/
def decodeTableWord (nbits w : Nat) : Option Instr :=
  let word : Word := BitVec.ofNat 16 (w % 2 ^ nbits)
  match decode [word.extractLsb' 8 8, word.extractLsb' 0 8] with
  | .ok (i, _) => some i
  | .error _ => none

end Sys2Proof
end

