-- ==== Sys2Proof/Config.lean ====
section
/-! DEFINITION. What is fixed when the block is built (00_scope.md R7, R10) and the one free value of the model. -/

namespace Sys2Proof

/-- The quirk bits, fixed at construction (00_scope.md R3, 10_state.md R27). -/
structure Quirks where
  /-- The shifts take their source from `V[y]` (8XY6, 8XYE). -/
  shiftUsesVy : Bool
  /-- BNNN adds `V[0]`, not `V[x]`. -/
  jumpUsesV0 : Bool
  /-- FX55 and FX65 leave `I + x + 1` in I. -/
  incrementI : Bool
  deriving DecidableEq, Repr

/-- The construction-time inputs (00_scope.md R7), with the parameter `VF_RESULT_LAST` of R10 and 43_alu.md R74. -/
structure Construction where
  quirks : Quirks
  /-- `VF_RESULT_LAST`: the result, not the flag, is written last by 8XY4, 8XY5, 8XY6, 8XY7 and 8XYE. -/
  vfResultLast : Bool
  /-- `FONT`, the 80 bytes copied to 0x050 at reset. -/
  font : Vector Byte 80
  /-- `ROM_IMAGE`, the program image copied to 0x200 at reset. -/
  image : List Byte
  deriving DecidableEq, Repr

namespace Config

/-- The number of memory cells; every address is reduced modulo it (20_memory.md R33). -/
abbrev memorySize : Nat := 4096

/-- `FONT_BASE` (10_state.md R24). -/
abbrev fontBase : Nat := 0x050

/-- `PROG_BASE`, also the reset value of PC (00_scope.md R10). -/
abbrev progBase : Nat := 0x200

/-- The longest image the loader accepts (70_reset_and_hazards.md R120; 90_conflicts.md C3). -/
abbrev maxImage : Nat := 3584

/-- The random byte of the draw with the given number, where the host has lined up none: a free value, any byte
(43_alu.md R86: "A model takes it as a free draw of the step, any value 0..255"). Assumption log 3. -/
opaque freeRandByte : Nat → Byte

end Config

end Sys2Proof
end

