-- ==== Sys2Proof/Machine/Loader.lean ====
section
/-! DEFINITION. The status register RUN with its error codes, and what the loader makes of the construction inputs at
reset (10_state.md R28; 60_exceptions.md R99; 70_reset_and_hazards.md R119, R120). -/

namespace Sys2Proof.Machine

/-- The errors of 60_exceptions.md R99. Their numbers are `faultNumber`. -/
inductive FaultCode where
  /-- The word selects no row of the opcode map. -/
  | unknownOpcode
  /-- 00EE with an empty stack. -/
  | stackUnderflow
  /-- 2NNN with a full stack. -/
  | stackOverflow
  /-- EX9E or EXA1 with `V[x]` above 15. -/
  | keyOutOfRange
  /-- The loader was given more than 3584 bytes. -/
  | imageRejected
  deriving DecidableEq, Repr

/-- The numeric error codes (60_exceptions.md R99). -/
def faultNumber : FaultCode → Nat
  | .unknownOpcode => 1
  | .stackUnderflow => 2
  | .stackOverflow => 3
  | .keyOutOfRange => 4
  | .imageRejected => 5

/-- The status register RUN (10_state.md R28). -/
inductive RunState where
  /-- A Step executes one instruction. -/
  | running
  /-- An FX0A waits for a key press; the press goes to `V[r]`. -/
  | awaitKey (r : Reg)
  /-- The run has ended on an error; only reset leaves this state. -/
  | halted (code : FaultCode) (faultPc faultWord : Word)
  deriving DecidableEq, Repr

/-- Bytes copied in ascending order from an address on. -/
def loadBytes : Memory → Nat → List Byte → Memory
  | m, _, [] => m
  | m, a, b :: bs => loadBytes (m.write a b) (a + 1) bs

/-- Whether the loader accepts the image (70_reset_and_hazards.md R120). -/
def imageAccepted (c : Construction) : Bool := decide (c.image.length ≤ Config.maxImage)

/-- Memory after reset: zero, then the font, then the image if it is accepted (70_reset_and_hazards.md R119, R120). -/
def loadedMemory (c : Construction) : Memory :=
  let withFont := loadBytes [] Config.fontBase c.font.toList
  if imageAccepted c then loadBytes withFont Config.progBase c.image else withFont

/-- The construction `State.reset` is of: the defaults of 10_state.md R27 and R24 and 00_scope.md R10, and the empty
image. DESIGN CHOICE: assumption log 4. -/
def defaultConstruction : Construction :=
  { quirks := { shiftUsesVy := false, jumpUsesV0 := false, incrementI := false },
    vfResultLast := false, font := defaultFont, image := [] }

/-- RUN after reset (10_state.md R28; 70_reset_and_hazards.md R120). -/
def resetRun (c : Construction) : RunState :=
  if imageAccepted c then .running else .halted .imageRejected 0 0

end Sys2Proof.Machine
end

