-- ==== Sys2Proof/Machine/State.lean ====
section
/-! DEFINITION. The state of the block as plain data (10_state.md R14), its reset (70_reset_and_hazards.md R119,
R120), and the reasons a step could stop. -/

namespace Sys2Proof.Machine

/-- The framebuffer: 32 rows of 64 cells, row 0 at the top, column 0 at the left, true for lit (10_state.md R25). -/
abbrev Frame := Vector (Vector Bool 64) 32

/-- A display request (00_scope.md R9). -/
inductive DisplayRequest where
  /-- `Clear`, emitted by 00E0. -/
  | clear
  /-- `Present(FB)`, a snapshot of the whole framebuffer. -/
  | present (fb : Frame)
  deriving DecidableEq, Repr

/-- What the host schedules between two Steps (20_memory.md R40): the four transactions of the block, and the host's
change of the input KEYS (60_exceptions.md R114: "set any key state at any time"). -/
inductive Transaction where
  /-- The engine executes one instruction (40_cycle.md R53). -/
  | step
  /-- The timer driver decrements both timers (60_exceptions.md R110). -/
  | tick
  /-- A key transition to pressed (60_exceptions.md R112). -/
  | keyPress (k : Key)
  /-- The host sets the held keys. -/
  | setKeys (keys : BitVec 16)
  /-- The host resets the block (70_reset_and_hazards.md R119). -/
  | reset
  deriving DecidableEq, Repr

/-- The machine's state. The fields down to `run` are the architectural state of 10_state.md R14. The fields after it
are the model's own: the construction inputs, the host's inputs and the output (00_scope.md R7, R8, R9). -/
structure State where
  /-- The general registers V0 to VF. -/
  v : Vector Byte 16
  /-- The index register I. -/
  i : Word
  /-- The program counter PC. -/
  pc : Word
  /-- The number of stack entries in use, 0 to 16. -/
  sp : Fin 17
  /-- The return addresses STACK[0] to STACK[15]. -/
  stack : Vector Word 16
  /-- The delay timer DT. -/
  dt : Byte
  /-- The sound timer ST. -/
  st : Byte
  /-- The memory M. -/
  mem : Memory
  /-- The framebuffer FB. -/
  fb : Frame
  /-- The control register QUIRKS, constant during a run. -/
  quirks : Quirks
  /-- The status register RUN. -/
  run : RunState
  /-- The construction inputs (assumption log 4). -/
  build : Construction
  /-- The transactions the host has lined up, the next one first; a Step when there is none (assumption log 1). -/
  schedule : List Transaction
  /-- The input KEYS: bit k is 1 while key k is held (assumption log 2). -/
  keys : BitVec 16
  /-- The bytes the random source has lined up, the next one first (assumption log 3). -/
  rand : List Byte
  /-- How many random bytes have been drawn (assumption log 3). -/
  draws : Nat
  /-- The display requests emitted, the oldest first (assumption log 7). -/
  out : List DisplayRequest
  deriving DecidableEq, Repr

/-- No step stops with a fault: an error of the block is a next state, `RunState.halted` (60_exceptions.md R105;
assumption log 9). Nothing raises one, so the type has no constructor. -/
inductive Fault : Type
  deriving DecidableEq, Repr

/-- Why an instruction would have no meaning. -/
inductive Refusal where
  /-- Raised by an arm of `exec` whose instruction has no meaning yet: none in this model. Safe. -/
  | notModelled (mnemonic : String)
  deriving DecidableEq, Repr

/-- The block right after reset, for any construction inputs (70_reset_and_hazards.md R119, R120). The host's inputs
and the output are empty (assumption log 1, 2, 3, 7). -/
def State.resetWith (c : Construction) : State where
  v := Vector.replicate 16 0
  i := 0
  pc := 0x200
  sp := 0
  stack := Vector.replicate 16 0
  dt := 0
  st := 0
  mem := loadedMemory c
  fb := Vector.replicate 32 (Vector.replicate 64 false)
  quirks := c.quirks
  run := resetRun c
  build := c
  schedule := []
  keys := 0
  rand := []
  draws := 0
  out := []

/-- The machine right after reset, with the default construction inputs (assumption log 4). -/
def State.reset : State := State.resetWith defaultConstruction

end Sys2Proof.Machine
end

