-- ==== Sys2Proof/Machine/Ops.lean ====
section
/-! DEFINITION. The named operations over the state: registers, memory, the stack, the output, the random input, the
fetch, and raising a fault (00_scope.md R13). -/

namespace Sys2Proof.Machine

/-! ## Registers -/

/-- `V[x]` (00_scope.md R13). -/
def State.reg (s : State) (x : Reg) : Byte := s.v[x]

/-- `V[x] <- b`. -/
def State.setReg (s : State) (x : Reg) (b : Byte) : State := { s with v := s.v.set x b }

/-- `I <- a`. -/
def State.setI (s : State) (a : Word) : State := { s with i := a }

/-- `PC <- a`. -/
def State.setPc (s : State) (a : Word) : State := { s with pc := a }

/-- `DT <- b`. -/
def State.setDt (s : State) (b : Byte) : State := { s with dt := b }

/-- `ST <- b`. -/
def State.setSt (s : State) (b : Byte) : State := { s with st := b }

/-- `RUN <- r`. -/
def State.setRun (s : State) (r : RunState) : State := { s with run := r }

/-- The whole framebuffer replaced. -/
def State.setFb (s : State) (fb : Frame) : State := { s with fb := fb }

/-- `FB[r][c]` (10_state.md R25). -/
def State.cell (s : State) (r : Fin 32) (c : Fin 64) : Bool := s.fb[r][c]

/-! ## Memory -/

/-- `MemRead(a, 1)`: the address is reduced modulo 4096 (20_memory.md R33). -/
def State.readByte (s : State) (a : Nat) : Byte := s.mem.read (a % Config.memorySize)

/-- `MemWrite(a, 1, b)`: the address is reduced modulo 4096 (20_memory.md R33). -/
def State.writeByte (s : State) (a : Nat) (b : Byte) : State :=
  { s with mem := s.mem.write (a % Config.memorySize) b }

/-! ## The call stack (10_state.md R21) -/

/-- A push of PC: `STACK[SP] <- PC`, then `SP <- SP + 1`. -/
def State.push (s : State) (h : s.sp.val < 16) : State :=
  { s with stack := s.stack.set s.sp.val s.pc h, sp := ⟨s.sp.val + 1, by omega⟩ }

/-- The entry a pop reads: `STACK[SP - 1]`. -/
def State.top (s : State) (_h : s.sp.val ≠ 0) : Word := s.stack[s.sp.val - 1]'(by omega)

/-- A pop into PC: `SP <- SP - 1`, then `PC <- STACK[SP]`. -/
def State.pop (s : State) (h : s.sp.val ≠ 0) : State :=
  { s with pc := s.top h, sp := ⟨s.sp.val - 1, by omega⟩ }

/-! ## Output and random input (00_scope.md R8, R9) -/

/-- `emit r`: a display request put on the output. -/
def State.emit (s : State) (r : DisplayRequest) : State := { s with out := s.out ++ [r] }

/-- The value of the next `RandByte()`: the host's next byte, else a free value (assumption log 3). -/
def State.nextRandom (s : State) : Byte := s.rand.head?.getD (Config.freeRandByte s.draws)

/-- The random input after one draw. -/
def State.drawRandom (s : State) : State := { s with rand := s.rand.tail, draws := s.draws + 1 }

/-! ## Fetch and PC (40_cycle.md R53) -/

/-- The word at an address: big-endian, each byte's address reduced modulo 4096 (20_memory.md R34). -/
def State.wordAt (s : State) (a : Nat) : Word := wordOfBytes (s.readByte a) (s.readByte (a + 1))

/-- The word the next Step executes. -/
def State.fetchWord (s : State) : Word := s.wordAt s.pc.toNat

/-- `PC <- (PC + 2) mod 65536`: the step's own advance, and a taken skip (40_cycle.md R53, R54). -/
def State.advancePc (s : State) : State := s.setPc (s.pc + 2)

/-- A skip: PC advanced once more when the condition holds (00_scope.md glossary, Skip). -/
def State.skipIf (s : State) (c : Bool) : State := if c then s.advancePc else s

/-! ## Faults (60_exceptions.md R105) -/

/-- `raise Fault(code)` in the body of the instruction with word `w`. PC has been advanced already, so `fault_pc` is
PC - 2 (modulo 65536): assumption log 8. Nothing else changes. -/
def State.raiseFault (s : State) (code : FaultCode) (w : Word) : State := s.setRun (.halted code (s.pc - 2) w)

end Sys2Proof.Machine
end

