-- ==== Sys2Proof/Machine/Flags.lean ====
section
/-! DEFINITION. The 8-bit arithmetic of chip8_alu with the flag each operation computes, and the order in which the
result and the flag are written (43_alu.md R73, R74). -/

namespace Sys2Proof.Machine

/-- A flag as VF holds it: 1 or 0. -/
def flagByte (c : Bool) : Byte := if c then 1 else 0

/-- A sum computed exactly, then reduced modulo 256 (43_alu.md R73). -/
def addByte (a b : Byte) : Byte := BitVec.ofNat 8 (a.toNat + b.toNat)

/-- The carry: the true sum exceeds 255 (43_alu.md R73, R81). -/
def carry (a b : Byte) : Bool := decide (a.toNat + b.toNat > 255)

/-- The difference a - b computed exactly, then reduced modulo 256 (43_alu.md R73). -/
def subByte (a b : Byte) : Byte := BitVec.ofInt 8 ((a.toNat : Int) - (b.toNat : Int))

/-- Not-borrow: the minuend is at least the subtrahend (43_alu.md R73, R82, R84). -/
def notBorrow (a b : Byte) : Bool := decide (a.toNat ≥ b.toNat)

/-- The source shifted right by one; the vacated bit is 0 (43_alu.md R83). -/
def shiftRight (a : Byte) : Byte := BitVec.ofNat 8 (a.toNat / 2)

/-- The bit a right shift moves out: bit 0 (43_alu.md R83). -/
def outRight (a : Byte) : Bool := a.getLsbD 0

/-- The source shifted left by one, modulo 256 (43_alu.md R85). -/
def shiftLeft (a : Byte) : Byte := BitVec.ofNat 8 (a.toNat * 2)

/-- The bit a left shift moves out: bit 7 (43_alu.md R85). -/
def outLeft (a : Byte) : Bool := a.getLsbD 7

/-- The result to `V[x]` and the flag to VF, the flag last, or the result last with `VF_RESULT_LAST` (43_alu.md R74;
assumption log 6). -/
def State.setRegFlag (s : State) (x : Reg) (result : Byte) (flag : Bool) : State :=
  if s.build.vfResultLast then (s.setReg VF (flagByte flag)).setReg x result
  else (s.setReg x result).setReg VF (flagByte flag)

end Sys2Proof.Machine
end

