-- ==== Sys2Proof/Machine/Operands.lean ====
section
/-! DEFINITION. The operand forms: the quirk-selected sources, the effective address I + k, register ranges in memory,
decimal digits, the glyph address and the key input (43_alu.md R83; 42_control_flow.md R72; 44_index_memory.md R89 to
R92; 45_keys_timers.md R93). -/

namespace Sys2Proof.Machine

/-- The source of a shift: `V[y]` with `shift_uses_vy` on, else `V[x]` (43_alu.md R83, R85). -/
def State.shiftSource (s : State) (x y : Reg) : Byte := if s.quirks.shiftUsesVy then s.reg y else s.reg x

/-- The register BNNN adds: V0 with `jump_uses_v0` on, else `V[x]` (42_control_flow.md R72). -/
def State.jumpOffset (s : State) (x : Reg) : Byte := if s.quirks.jumpUsesV0 then s.reg 0 else s.reg x

/-- The address of offset k from I, as an integer; the access reduces it modulo 4096 (44_index_memory.md). -/
def State.indexed (s : State) (k : Nat) : Nat := s.i.toNat + k

/-- I after FX55 or FX65: `(I + x + 1) mod 65536` with `increment_i_on_memory_ops` on (44_index_memory.md R91, R92). -/
def State.bumpI (s : State) (x : Reg) : State :=
  if s.quirks.incrementI then s.setI (BitVec.ofNat 16 (s.i.toNat + x.val + 1)) else s

/-- The first n registers stored in ascending order: `M[I + k] <- V[k]` (44_index_memory.md R91). -/
def storeFirst : Nat → State → State
  | 0, s => s
  | n + 1, s =>
    let t := storeFirst n s
    t.writeByte (t.indexed n) (t.reg (Fin.ofNat 16 n))

/-- The first n registers loaded in ascending order: `V[k] <- M[I + k]` (44_index_memory.md R92). -/
def loadFirst : Nat → State → State
  | 0, s => s
  | n + 1, s =>
    let t := loadFirst n s
    t.setReg (Fin.ofNat 16 n) (t.readByte (t.indexed n))

/-- The decimal digits of a byte (44_index_memory.md R90). -/
def hundreds (b : Byte) : Byte := BitVec.ofNat 8 (b.toNat / 100)

/-- The tens digit. -/
def tens (b : Byte) : Byte := BitVec.ofNat 8 (b.toNat / 10 % 10)

/-- The ones digit. -/
def ones (b : Byte) : Byte := BitVec.ofNat 8 (b.toNat % 10)

/-- The glyph address of a byte's low nibble: `0x050 + 5 * (b mod 16)` (44_index_memory.md R89). -/
def glyphAddress (b : Byte) : Word := BitVec.ofNat 16 (Config.fontBase + 5 * (b.toNat % 16))

/-- `KEYS[k]`, for a key number that may be any byte: false above 15, where the instructions fault instead
(45_keys_timers.md R93). -/
def State.keyHeld (s : State) (k : Byte) : Bool := s.keys.getLsbD k.toNat

end Sys2Proof.Machine
end

