-- ==== Sys2Proof/Machine/Alu.lean ====
section
/-! DEFINITION. The register and ALU instructions (43_alu.md). Every operand is read before any write (R74). -/

namespace Sys2Proof.Machine

/-- 6XNN (43_alu.md R75). -/
def execLdByte (x : Reg) (nn : Byte) (s : State) : Host.Outcome State Fault Refusal := .next (s.setReg x nn)

/-- 7XNN (43_alu.md R76). -/
def execAddByte (x : Reg) (nn : Byte) (s : State) : Host.Outcome State Fault Refusal :=
  .next (s.setReg x (addByte (s.reg x) nn))

/-- 8XY0 (43_alu.md R77). -/
def execLdReg (x y : Reg) (s : State) : Host.Outcome State Fault Refusal := .next (s.setReg x (s.reg y))

/-- 8XY1 (43_alu.md R78). -/
def execOrReg (x y : Reg) (s : State) : Host.Outcome State Fault Refusal := .next (s.setReg x (s.reg x ||| s.reg y))

/-- 8XY2 (43_alu.md R79). -/
def execAndReg (x y : Reg) (s : State) : Host.Outcome State Fault Refusal := .next (s.setReg x (s.reg x &&& s.reg y))

/-- 8XY3 (43_alu.md R80). -/
def execXorReg (x y : Reg) (s : State) : Host.Outcome State Fault Refusal := .next (s.setReg x (s.reg x ^^^ s.reg y))

/-- 8XY4 (43_alu.md R81). -/
def execAddReg (x y : Reg) (s : State) : Host.Outcome State Fault Refusal :=
  .next (s.setRegFlag x (addByte (s.reg x) (s.reg y)) (carry (s.reg x) (s.reg y)))

/-- 8XY5 (43_alu.md R82). -/
def execSubReg (x y : Reg) (s : State) : Host.Outcome State Fault Refusal :=
  .next (s.setRegFlag x (subByte (s.reg x) (s.reg y)) (notBorrow (s.reg x) (s.reg y)))

/-- 8XY6 (43_alu.md R83). -/
def execShr (x y : Reg) (s : State) : Host.Outcome State Fault Refusal :=
  .next (s.setRegFlag x (shiftRight (s.shiftSource x y)) (outRight (s.shiftSource x y)))

/-- 8XY7 (43_alu.md R84). -/
def execSubn (x y : Reg) (s : State) : Host.Outcome State Fault Refusal :=
  .next (s.setRegFlag x (subByte (s.reg y) (s.reg x)) (notBorrow (s.reg y) (s.reg x)))

/-- 8XYE (43_alu.md R85). -/
def execShl (x y : Reg) (s : State) : Host.Outcome State Fault Refusal :=
  .next (s.setRegFlag x (shiftLeft (s.shiftSource x y)) (outLeft (s.shiftSource x y)))

/-- CXNN (43_alu.md R86): one draw is consumed whatever the mask. -/
def execRnd (x : Reg) (nn : Byte) (s : State) : Host.Outcome State Fault Refusal :=
  .next (s.drawRandom.setReg x (s.nextRandom &&& nn))

end Sys2Proof.Machine
end

