-- ==== Sys2Proof/Machine/Control.lean ====
section
/-! DEFINITION. The control flow instructions and the call stack (42_control_flow.md). PC has been advanced. -/

namespace Sys2Proof.Machine

/-- 00EE (42_control_flow.md R65; 60_exceptions.md R101). -/
def execRet (s : State) : Host.Outcome State Fault Refusal :=
  if h : s.sp.val = 0 then .next (s.raiseFault .stackUnderflow (encode .ret)) else .next (s.pop h)

/-- 1NNN (42_control_flow.md R66). -/
def execJp (nnn : Addr) (s : State) : Host.Outcome State Fault Refusal := .next (s.setPc (nnn.setWidth 16))

/-- 2NNN (42_control_flow.md R67; 60_exceptions.md R102). -/
def execCall (nnn : Addr) (s : State) : Host.Outcome State Fault Refusal :=
  if h : s.sp.val < 16 then .next ((s.push h).setPc (nnn.setWidth 16))
  else .next (s.raiseFault .stackOverflow (encode (.call nnn)))

/-- 3XNN (42_control_flow.md R68). -/
def execSeByte (x : Reg) (nn : Byte) (s : State) : Host.Outcome State Fault Refusal := .next (s.skipIf (s.reg x == nn))

/-- 4XNN (42_control_flow.md R69). -/
def execSneByte (x : Reg) (nn : Byte) (s : State) : Host.Outcome State Fault Refusal := .next (s.skipIf (s.reg x != nn))

/-- 5XY0 (42_control_flow.md R70). -/
def execSeReg (x y : Reg) (s : State) : Host.Outcome State Fault Refusal := .next (s.skipIf (s.reg x == s.reg y))

/-- 9XY0 (42_control_flow.md R71). -/
def execSneReg (x y : Reg) (s : State) : Host.Outcome State Fault Refusal := .next (s.skipIf (s.reg x != s.reg y))

/-- BNNN (42_control_flow.md R72): the sum is stored unreduced; it fits in 16 bits. -/
def execJpV0 (x : Reg) (nnn : Addr) (s : State) : Host.Outcome State Fault Refusal :=
  .next (s.setPc (BitVec.ofNat 16 (nnn.toNat + (s.jumpOffset x).toNat)))

end Sys2Proof.Machine
end

