-- ==== Sys2Proof/Machine/Draw.lean ====
section
/-! DEFINITION. framebuffer_sprite_blit_xor: drawing a sprite by XOR with clipping (41_display.md R60 to R63). -/

namespace Sys2Proof.Machine

/-- A draw in progress: the framebuffer and whether a lit cell has been turned off. -/
structure Drawing where
  fb : Frame
  hit : Bool
  deriving DecidableEq, Repr

/-- One sprite bit at a row and a column: clipped past row 31 or column 63, else a 1 bit toggles the cell and records
a collision when the cell was lit (41_display.md R60, R61, R62). -/
def drawCell (row col : Nat) (bit : Bool) (d : Drawing) : Drawing :=
  if h : row ≤ 31 ∧ col ≤ 63 then
    if bit then
      { fb := d.fb.set row ((d.fb[row]'(by omega)).set col (!(d.fb[row]'(by omega))[col]'(by omega)) (by omega)) (by omega),
        hit := d.hit || (d.fb[row]'(by omega))[col]'(by omega) }
    else d
  else d

/-- The columns c to 7 of one sprite row, most-significant bit leftmost: `b[7 - c]` at column `col0 + c`. The first
argument counts the columns left. -/
def drawColumns : Nat → Nat → Nat → Byte → Drawing → Drawing
  | 0, _, _, _, d => d
  | k + 1, row, col0, b, d => drawColumns k row col0 b (drawCell row (col0 + (7 - k)) (b.getLsbD k) d)

/-- The rows of a sprite from a row of the framebuffer down. -/
def drawRows (col0 : Nat) : Nat → List Byte → Drawing → Drawing
  | _, [], d => d
  | row, b :: bs, d => drawRows col0 (row + 1) bs (drawColumns 8 row col0 b d)

/-- The n bytes of a sprite: row r is `M[(I + r) mod 4096]` (41_display.md R62). -/
def State.spriteRows (s : State) (n : Nat) : List Byte := (List.range n).map (fun r => s.readByte (s.i.toNat + r))

/-- The framebuffer and the collision after a sprite of n rows is drawn at an origin. -/
def State.drawSprite (s : State) (row0 col0 n : Nat) : Drawing :=
  drawRows col0 row0 (s.spriteRows n) { fb := s.fb, hit := false }

/-- The origin column of a draw, read before VF is reset (41_display.md R61, R63). -/
def State.originColumn (s : State) (x : Reg) : Nat := (s.reg x).toNat % 64

/-- The origin row of a draw. -/
def State.originRow (s : State) (y : Reg) : Nat := (s.reg y).toNat % 32

end Sys2Proof.Machine
end

