-- ==== Sys2Proof/Machine/Display.lean ====
section
/-! DEFINITION. The display instructions (41_display.md). -/

namespace Sys2Proof.Machine

/-- The framebuffer with every cell unlit. -/
def clearFrame : Frame := Vector.replicate 32 (Vector.replicate 64 false)

/-- 00E0 (41_display.md R59). -/
def execCls (s : State) : Host.Outcome State Fault Refusal :=
  .next (((s.setFb clearFrame).emit .clear).emit (.present clearFrame))

/-- DXYN (41_display.md R60 to R64). Both coordinates are read before VF is written. -/
def execDrw (x y : Reg) (n : BitVec 4) (s : State) : Host.Outcome State Fault Refusal :=
  let d := s.drawSprite (s.originRow y) (s.originColumn x) n.toNat
  .next (((s.setFb d.fb).setReg VF (flagByte d.hit)).emit (.present d.fb))

end Sys2Proof.Machine
end

