-- ==== Sys2Proof/Machine/Index.lean ====
section
/-! DEFINITION. The index register and memory instructions (44_index_memory.md). -/

namespace Sys2Proof.Machine

/-- ANNN (44_index_memory.md R87). -/
def execLdI (nnn : Addr) (s : State) : Host.Outcome State Fault Refusal := .next (s.setI (nnn.setWidth 16))

/-- FX1E (44_index_memory.md R88): modulo 65536, no flag. -/
def execAddI (x : Reg) (s : State) : Host.Outcome State Fault Refusal :=
  .next (s.setI (BitVec.ofNat 16 (s.i.toNat + (s.reg x).toNat)))

/-- FX29 (44_index_memory.md R89). -/
def execLdF (x : Reg) (s : State) : Host.Outcome State Fault Refusal := .next (s.setI (glyphAddress (s.reg x)))

/-- FX33 (44_index_memory.md R90): hundreds, tens, ones in ascending order. -/
def execLdB (x : Reg) (s : State) : Host.Outcome State Fault Refusal :=
  let b := s.reg x
  .next (((s.writeByte (s.indexed 0) (hundreds b)).writeByte (s.indexed 1) (tens b)).writeByte (s.indexed 2) (ones b))

/-- FX55 (44_index_memory.md R91). -/
def execStoreRegs (x : Reg) (s : State) : Host.Outcome State Fault Refusal :=
  .next ((storeFirst (x.val + 1) s).bumpI x)

/-- FX65 (44_index_memory.md R92). -/
def execLoadRegs (x : Reg) (s : State) : Host.Outcome State Fault Refusal :=
  .next ((loadFirst (x.val + 1) s).bumpI x)

end Sys2Proof.Machine
end

