-- ==== Sys2Proof/Machine/KeyTimer.lean ====
section
/-! DEFINITION. The key and timer instructions (45_keys_timers.md). -/

namespace Sys2Proof.Machine

/-- EX9E (45_keys_timers.md R93; 60_exceptions.md R103). -/
def execSkp (x : Reg) (s : State) : Host.Outcome State Fault Refusal :=
  if (s.reg x).toNat > 15 then .next (s.raiseFault .keyOutOfRange (encode (.skp x)))
  else .next (s.skipIf (s.keyHeld (s.reg x)))

/-- EXA1 (45_keys_timers.md R94; 60_exceptions.md R103). -/
def execSknp (x : Reg) (s : State) : Host.Outcome State Fault Refusal :=
  if (s.reg x).toNat > 15 then .next (s.raiseFault .keyOutOfRange (encode (.sknp x)))
  else .next (s.skipIf (!s.keyHeld (s.reg x)))

/-- FX07 (45_keys_timers.md R95). -/
def execLdVxDT (x : Reg) (s : State) : Host.Outcome State Fault Refusal := .next (s.setReg x s.dt)

/-- FX0A (45_keys_timers.md R96): the block waits; the key press writes `V[x]` later. -/
def execLdVxK (x : Reg) (s : State) : Host.Outcome State Fault Refusal := .next (s.setRun (.awaitKey x))

/-- FX15 (45_keys_timers.md R97). -/
def execLdDTVx (x : Reg) (s : State) : Host.Outcome State Fault Refusal := .next (s.setDt (s.reg x))

/-- FX18 (45_keys_timers.md R98). -/
def execLdSTVx (x : Reg) (s : State) : Host.Outcome State Fault Refusal := .next (s.setSt (s.reg x))

end Sys2Proof.Machine
end

