-- ==== Sys2Proof/Machine/Engine.lean ====
section
/-! DEFINITION. The transactions of the block: Step, Tick, KeyPress and reset, and the order they are taken in
(40_cycle.md R53 to R58; 60_exceptions.md R110, R112; 70_reset_and_hazards.md R119; 20_memory.md R40). -/

namespace Sys2Proof.Machine

/-- Fetch, PC advance, decode, dispatch, execute (40_cycle.md R53). An unknown word faults (60_exceptions.md R100). -/
def runInstruction (s : State) : Host.Outcome State Fault Refusal :=
  match decodeWord s.fetchWord with
  | .ok i => exec i s.advancePc
  | .error _ => .next (s.advancePc.raiseFault .unknownOpcode s.fetchWord)

/-- The Step transaction: it does nothing while the block waits for a key or is halted (40_cycle.md R53, R55, R56). -/
def engineStep (s : State) : Host.Outcome State Fault Refusal :=
  match s.run with
  | .running => runInstruction s
  | .awaitKey _ => .next s
  | .halted _ _ _ => .next s

/-- A timer one lower, clamped at 0 (10_state.md R22). -/
def countDown (b : Byte) : Byte := BitVec.ofNat 8 (b.toNat - 1)

/-- The Tick transaction (60_exceptions.md R110). -/
def tick (s : State) : State :=
  match s.run with
  | .running => (s.setDt (countDown s.dt)).setSt (countDown s.st)
  | .awaitKey _ => (s.setDt (countDown s.dt)).setSt (countDown s.st)
  | .halted _ _ _ => s

/-- The KeyPress transaction (60_exceptions.md R112): it ends a wait, and is dropped otherwise. -/
def keyPress (k : Key) (s : State) : State :=
  match s.run with
  | .awaitKey r => (s.setReg r (BitVec.ofNat 8 k.val)).setRun .running
  | .running => s
  | .halted _ _ _ => s

/-- The reset transaction: the block as after construction; the host's inputs and the requests already emitted stay
(70_reset_and_hazards.md R119; assumption log 13). -/
def resetBlock (s : State) : State :=
  { State.resetWith s.build with
    schedule := s.schedule, keys := s.keys, rand := s.rand, draws := s.draws, out := s.out }

/-- One transaction. -/
def perform : Transaction → State → Host.Outcome State Fault Refusal
  | .step, s => engineStep s
  | .tick, s => .next (tick s)
  | .keyPress k, s => .next (keyPress k s)
  | .setKeys keys, s => .next { s with keys := keys }
  | .reset, s => .next (resetBlock s)

/-- The transaction that comes next: the head of the host's schedule, or a Step (assumption log 1). -/
def State.nextTransaction (s : State) : Transaction := s.schedule.head?.getD .step

/-- The state with the next transaction taken off the schedule. -/
def State.takeTransaction (s : State) : State := { s with schedule := s.schedule.tail }

/-- The state with a word stored big-endian where the next Step fetches, that Step being the next transaction. -/
def State.placeWord (s : State) (w : Word) : State :=
  { (s.writeByte s.pc.toNat (w.extractLsb' 8 8)).writeByte (s.pc.toNat + 1) (w.extractLsb' 0 8) with
    run := .running, schedule := [] }

end Sys2Proof.Machine
end

