-- ==== Sys2Proof/Machine/Step.lean ====
section
/-! DEFINITION. One step of the machine: the next transaction (20_memory.md R40). -/

namespace Sys2Proof.Machine

/-- One step: the next transaction of the schedule, or a Step of the engine when the schedule is empty (assumption
log 1). -/
def step (s : State) : Host.Outcome State Fault Refusal := perform s.nextTransaction s.takeTransaction

/-- The state with an instruction stored where `step` fetches its next one (assumption log 12). The word is numbered as
spec/opcode_table.json numbers it: bit 0 is its least significant bit. RUN is set to RUNNING and the schedule is
emptied, so that the next transaction is the Step that fetches it; after reset both are so already. -/
def State.withFetchWord (s : State) (nbits w : Nat) : State := s.placeWord (BitVec.ofNat 16 (w % 2 ^ nbits))

end Sys2Proof.Machine
end

