-- ==== Sys2Proof/Safety.lean ====
section
/-! DEFINITION. The terms the statements use: what a state keeps, the shape of a register write and of a fault, a
sprite's pixels, each instruction's writers, and the invariant of the block. -/

namespace Sys2Proof.Machine

/-! ## What is kept -/

/-- Nothing but general registers differs. -/
def OnlyRegs (s t : State) : Prop := t = { s with v := t.v }

/-- Nothing but `V[x]` differs, and it holds b. -/
def RegWritten (s t : State) (x : Reg) (b : Byte) : Prop :=
  OnlyRegs s t ∧ ∀ k, t.reg k = if k = x then b else s.reg k

/-- The result is in `V[x]`, the flag in VF and nothing else differs. When x is VF, the flag stays, or the result with
`VF_RESULT_LAST` (43_alu.md R74). -/
def FlagWritten (s t : State) (x : Reg) (result : Byte) (flag : Bool) : Prop :=
  OnlyRegs s t ∧ (∀ k, k ≠ x → k ≠ VF → t.reg k = s.reg k) ∧
  (x ≠ VF → t.reg x = result ∧ t.reg VF = if flag then 1 else 0) ∧
  (x = VF → t.reg VF = if s.build.vfResultLast then result else if flag then 1 else 0)

/-- The architectural state of 10_state.md R14 is the same in both. -/
def SameBlock (s t : State) : Prop :=
  t.v = s.v ∧ t.i = s.i ∧ t.pc = s.pc ∧ t.sp = s.sp ∧ t.stack = s.stack ∧ t.dt = s.dt ∧ t.st = s.st ∧
  t.mem = s.mem ∧ t.fb = s.fb ∧ t.quirks = s.quirks ∧ t.run = s.run

/-- A fault raised in an instruction's body, PC being advanced already: RUN records the code, the address fetched from
(PC is two past it) and the word, and nothing else differs (60_exceptions.md R105). -/
def Faulted (s t : State) (code : FaultCode) (w : Word) : Prop :=
  ∃ p : Word, t = { s with run := .halted code p w } ∧ s.pc = p + 2

/-- RUN is HALTED. -/
def Halted (s : State) : Prop := ∃ code p w, s.run = .halted code p w

/-- An outcome with a change made to its next state. -/
def mapNext (f : State → State) : Host.Outcome State Fault Refusal → Host.Outcome State Fault Refusal
  | .next s => .next (f s)
  | .fault r => .fault r
  | .refused r => .refused r

/-- The same state but for stack entries that are not in use (10_state.md R29). -/
def SameUpToStale (s t : State) : Prop :=
  t = { s with stack := t.stack } ∧ ∀ k : Fin 16, k.val < s.sp.val → t.stack[k] = s.stack[k]

/-! ## A sprite's pixels -/

/-- Whether a sprite of n rows at an origin has a 1 bit on a cell of the grid: sprite row `r - row0` is the byte at
`I + (r - row0)`, and column `c - col0` is its bit `7 - (c - col0)` (41_display.md R61, R62). -/
def spritePixel (s : State) (row0 col0 n : Nat) (r : Fin 32) (c : Fin 64) : Bool :=
  decide (row0 ≤ r.val ∧ r.val < row0 + n ∧ col0 ≤ c.val ∧ c.val < col0 + 8) &&
    (s.readByte (s.indexed (r.val - row0))).getLsbD (7 - (c.val - col0))

/-- The pixels of `DXYN` in a state: its origin is `(V[y] mod 32, V[x] mod 64)` (41_display.md R61). -/
def drwPixel (s : State) (x y : Reg) (n : BitVec 4) (r : Fin 32) (c : Fin 64) : Bool :=
  spritePixel s ((s.reg y).toNat % 32) ((s.reg x).toNat % 64) n.toNat r c

/-! ## The writers of each part of the state -/

/-- The general registers an instruction may write in its own Step (10_state.md R16, R17). FX0A writes none: the key
press writes its register later (45_keys_timers.md R96). -/
def destRegs : Instr → List Reg
  | .ldByte x _ | .addByte x _ | .ldReg x _ | .orReg x _ | .andReg x _ | .xorReg x _ | .rnd x _ | .ldVxDT x => [x]
  | .addReg x _ | .subReg x _ | .shr x _ | .subn x _ | .shl x _ => [x, VF]
  | .drw _ _ _ => [VF]
  | .loadRegs x => (List.finRange 16).filter (fun k => k ≤ x)
  | .cls | .ret | .jp _ | .call _ | .seByte _ _ | .sneByte _ _ | .seReg _ _ | .sneReg _ _ | .ldI _ | .jpV0 _ _
  | .skp _ | .sknp _ | .ldVxK _ | .ldDTVx _ | .ldSTVx _ | .addI _ | .ldF _ | .ldB _ | .storeRegs _ => []

/-- The addresses an instruction stores to (20_memory.md R32). -/
def storedAddresses (i : Instr) (s : State) : List Nat :=
  match i with
  | .ldB _ => [s.indexed 0, s.indexed 1, s.indexed 2]
  | .storeRegs x => (List.range (x.val + 1)).map s.indexed
  | .cls | .ret | .jp _ | .call _ | .seByte _ _ | .sneByte _ _ | .seReg _ _ | .ldByte _ _ | .addByte _ _ | .ldReg _ _
  | .orReg _ _ | .andReg _ _ | .xorReg _ _ | .addReg _ _ | .subReg _ _ | .shr _ _ | .subn _ _ | .shl _ _
  | .sneReg _ _ | .ldI _ | .jpV0 _ _ | .rnd _ _ | .drw _ _ _ | .skp _ | .sknp _ | .ldVxDT _ | .ldVxK _
  | .ldDTVx _ | .ldSTVx _ | .addI _ | .ldF _ | .loadRegs _ => []

/-! ## The invariant -/

/-- Why the recorded word raised its code, in the state it left (60_exceptions.md R99 to R103). -/
def FaultCause (s : State) (w : Word) : FaultCode → Prop
  | .unknownOpcode => ∃ e, decodeWord w = .error e
  | .stackUnderflow => decodeWord w = .ok .ret ∧ s.sp.val = 0
  | .stackOverflow => ∃ nnn, decodeWord w = .ok (.call nnn) ∧ s.sp.val = 16
  | .keyOutOfRange => ∃ x, (decodeWord w = .ok (.skp x) ∨ decodeWord w = .ok (.sknp x)) ∧ (s.reg x).toNat > 15
  | .imageRejected => False

/-- RUN tells the truth: a block that runs, waits or halted on an instruction has an accepted image; a wait follows the
FX0A at PC - 2; a fault record holds the address of the faulting instruction, its word and a true cause, with PC two
past it; a rejected image is recorded as (IMAGE_REJECTED, 0, 0) (60_exceptions.md R104, R105; 45_keys_timers.md R96). -/
def RunTruthful (s : State) : Prop :=
  match s.run with
  | .running => s.build.image.length ≤ 3584
  | .awaitKey r => s.build.image.length ≤ 3584 ∧ s.wordAt (s.pc - 2).toNat = encode (.ldVxK r)
  | .halted .imageRejected p w => s.build.image.length > 3584 ∧ p = 0 ∧ w = 0
  | .halted code p w =>
    s.build.image.length ≤ 3584 ∧ s.pc = p + 2 ∧ s.wordAt p.toNat = w ∧ FaultCause s w code

/-- The invariant of the block: memory is in canonical form, QUIRKS holds the construction inputs, and RUN tells the
truth. -/
def BlockInv (s : State) : Prop := s.mem.wf = true ∧ s.quirks = s.build.quirks ∧ RunTruthful s

end Sys2Proof.Machine
end

