-- ==== Sys2Proof/Certificates/Slice0/Obligations.lean ====
section
/-! DEFINITION. The statements for the provers. Every instruction-level statement speaks of `exec`, the `execute` part
of 40_cycle.md R53, with PC already advanced; `StepFetchesAdvancesAndExecutes` carries it to a step. -/

open Sys2Proof Sys2Proof.Machine

/-! ## Reset and loading -/

/-- 70_reset_and_hazards.md R119: reset gives every register, the stack, the framebuffer, QUIRKS and the memory below
the program area its value, for all construction inputs, in any run state, and emits no display request. -/
def Obligations.ResetFixesEveryField : Prop :=
  (∀ c : Construction,
    (∀ x, (State.resetWith c).reg x = 0) ∧ (State.resetWith c).i = 0 ∧ (State.resetWith c).pc = 0x200 ∧
    (State.resetWith c).sp.val = 0 ∧ (∀ k : Fin 16, (State.resetWith c).stack[k] = 0) ∧
    (State.resetWith c).dt = 0 ∧ (State.resetWith c).st = 0 ∧ (∀ row col, (State.resetWith c).cell row col = false) ∧
    (State.resetWith c).quirks = c.quirks ∧ (c.image.length ≤ 3584 → (State.resetWith c).run = .running) ∧
    (∀ a, a < 0x200 → (State.resetWith c).readByte a =
      if 0x050 ≤ a ∧ a ≤ 0x09F then c.font.toList.getD (a - 0x050) 0 else 0) ∧
    (∀ a, 0x200 ≤ a → a < 4096 → (State.resetWith c).readByte a =
      if c.image.length ≤ 3584 ∧ a - 0x200 < c.image.length then c.image.getD (a - 0x200) 0 else 0)) ∧
  ∀ s, s.nextTransaction = .reset → ∃ t, step s = .next t ∧ SameBlock (State.resetWith s.build) t ∧ t.out = s.out

/-- 70_reset_and_hazards.md R120: an image of at most 3584 bytes is copied to 0x200, memory above it stays 0; a longer
one is not copied and leaves RUN at HALTED(IMAGE_REJECTED, 0, 0); after an empty image the first Step halts on the
word 0x0000 at 0x200. -/
def Obligations.LoaderCopiesOrRejectsImage : Prop :=
  ∀ c : Construction,
    (c.image.length ≤ 3584 → (State.resetWith c).run = .running ∧
      (∀ j, j < c.image.length → (State.resetWith c).readByte (0x200 + j) = c.image.getD j 0) ∧
      (∀ a, 0x200 + c.image.length ≤ a → a < 4096 → (State.resetWith c).readByte a = 0)) ∧
    (c.image.length > 3584 → (State.resetWith c).run = .halted .imageRejected 0 0 ∧
      ∀ a, 0x200 ≤ a → a < 4096 → (State.resetWith c).readByte a = 0) ∧
    (c.image = [] → ∃ t, step (State.resetWith c) = .next t ∧ t.run = .halted .unknownOpcode 0x200 0x0000 ∧ t.pc = 0x202)

/-! ## Encoding -/

/-- 30_encoding.md R45: the fields are the digits of the word, and they overlap. -/
def Obligations.FieldsSplitTheWord : Prop :=
  ∀ w : Word,
    w.toNat = (fieldOp w).toNat * 4096 + (fieldNNN w).toNat ∧
    (fieldNNN w).toNat = (fieldX w).val * 256 + (fieldNN w).toNat ∧
    (fieldNN w).toNat = (fieldY w).val * 16 + (fieldN w).toNat

/-- 30_encoding.md R48: 34 distinct rows; a word decodes to a row's instruction exactly when it selects the row by mask
and match; it is rejected exactly when it selects none; so it selects at most one. -/
def Obligations.DispatchFollowsTheOpcodeMap : Prop :=
  opcodeRows.length = 34 ∧ (opcodeRows.map (fun f => rowOf (f 0))).Nodup ∧
  (∀ w : Word, ∀ f ∈ opcodeRows, (rowOf (f w)).selects w = true ↔ decodeWord w = .ok (f w)) ∧
  (∀ w : Word, (∃ e, decodeWord w = .error e) ↔ ∀ f ∈ opcodeRows, (rowOf (f w)).selects w = false) ∧
  ∀ w : Word, ∀ f ∈ opcodeRows, ∀ g ∈ opcodeRows, (rowOf (f w)).selects w = true → (rowOf (g w)).selects w = true →
    rowOf (f w) = rowOf (g w)

/-- 30_encoding.md section 5: the unknown words, family by family, and their one name. -/
def Obligations.UnknownWordsByFamily : Prop :=
  ∀ w : Word, (decodeWord w = .error .unknownOpcode ↔
      (fieldOp w = 0x0 ∧ w ≠ 0x00E0 ∧ w ≠ 0x00EE) ∨
      ((fieldOp w = 0x5 ∨ fieldOp w = 0x9) ∧ fieldN w ≠ 0) ∨
      (fieldOp w = 0x8 ∧ fieldN w ∈ [0x8#4, 0x9#4, 0xA#4, 0xB#4, 0xC#4, 0xD#4, 0xF#4]) ∨
      (fieldOp w = 0xE ∧ fieldNN w ∉ [0x9E#8, 0xA1#8]) ∨
      (fieldOp w = 0xF ∧ fieldNN w ∉ [0x07#8, 0x0A#8, 0x15#8, 0x18#8, 0x1E#8, 0x29#8, 0x33#8, 0x55#8, 0x65#8])) ∧
    decodeWord w ≠ .error .truncated

/-- Decoding an encoded well-formed instruction gives it back, in words and in bytes whatever follows them. -/
def Obligations.DecodeOfEncodeIsIdentity : Prop :=
  ∀ i : Instr, i.wf = true → decodeWord (encode i) = .ok i ∧
    ∀ rest, decode (encodeBytes i ++ rest) = .ok (i, rest)

/-- A decoded instruction is well formed, and encoding it gives the word back: no bit of a word is dropped. -/
def Obligations.EncodeOfDecodeIsIdentity : Prop :=
  ∀ (w : Word) (i : Instr), decodeWord w = .ok i → i.wf = true ∧ encode i = w

/-- Words written out from the encodings of 30_encoding.md R49, one or more of each family. -/
def Obligations.SampleWordsDecode : Prop :=
  decodeWord 0b0000000011100000 = .ok .cls ∧ decodeWord 0b0010001100000000 = .ok (.call 0x300) ∧
  decodeWord 0b0101000100100000 = .ok (.seReg 1 2) ∧ decodeWord 0b1000101010110100 = .ok (.addReg 0xA 0xB) ∧
  decodeWord 0b1011001000000000 = .ok (.jpV0 2 0x200) ∧ decodeWord 0b1101111100000001 = .ok (.drw 0xF 0 1) ∧
  decodeWord 0b1110010110011110 = .ok (.skp 5) ∧ decodeWord 0b1111001001100101 = .ok (.loadRegs 2) ∧
  decodeWord 0b0101000100100001 = .error .unknownOpcode

/-! ## The step and the other transactions -/

/-- 40_cycle.md R53: a Step of a running block reads the big-endian word at PC, each byte's address modulo 4096,
advances PC by 2 modulo 65536, and then executes the word's instruction, or faults when there is none. -/
def Obligations.StepFetchesAdvancesAndExecutes : Prop :=
  ∀ s, s.run = .running → s.nextTransaction = .step →
    s.fetchWord.toNat = (s.readByte (s.pc.toNat % 4096)).toNat * 256 + (s.readByte ((s.pc.toNat + 1) % 4096)).toNat ∧
    ∃ u : State, u = { s with pc := u.pc, schedule := s.schedule.tail } ∧ u.pc.toNat = (s.pc.toNat + 2) % 65536 ∧
      (∀ i, decodeWord s.fetchWord = .ok i → step s = exec i u) ∧
      (∀ e, decodeWord s.fetchWord = .error e →
        step s = .next { u with run := .halted .unknownOpcode s.pc s.fetchWord })

/-- 60_exceptions.md R100: a word of no row is fatal and surfaced under its own code. -/
def Obligations.UnknownOpcodeIsFatal : Prop :=
  ∀ s, s.run = .running → s.nextTransaction = .step → (∀ f ∈ opcodeRows, (rowOf (f s.fetchWord)).selects s.fetchWord = false) →
    ∃ t, step s = .next t ∧ t.run = .halted .unknownOpcode s.pc s.fetchWord ∧
      t = { s with pc := s.pc + 2, run := t.run, schedule := s.schedule.tail }

/-- 60_exceptions.md R105: a Step that faults leaves everything as it was but PC, two further on, and RUN, which records
the address and the word fetched (the model takes the Step off its schedule). -/
def Obligations.FaultsArePrecise : Prop :=
  ∀ s t code p w, s.run = .running → s.nextTransaction = .step → step s = .next t → t.run = .halted code p w →
    p = s.pc ∧ w = s.fetchWord ∧ t.pc.toNat = (p.toNat + 2) % 65536 ∧
    t = { s with pc := t.pc, run := .halted code p w, schedule := s.schedule.tail }

/-- 70_reset_and_hazards.md R122: a jump to itself parks the block: however many Steps follow, nothing changes. -/
def Obligations.SelfJumpParks : Prop :=
  ∀ (n : Nat) (s : State) (nnn : Addr), s.run = .running → s.schedule = [] → s.pc.toNat = nnn.toNat → s.fetchWord = wordNNN 0x1 nnn →
    core.run n s = .next s

/-- 40_cycle.md R55: a Step while the block waits for a key changes nothing (the model takes the Step off its schedule),
and no transaction but a key press or a reset ends the wait. -/
def Obligations.WaitEndsOnlyByKeyPressOrReset : Prop :=
  ∀ s r, s.run = .awaitKey r →
    (s.nextTransaction = .step → step s = .next { s with schedule := s.schedule.tail }) ∧
    ∀ t, step s = .next t → t.run ≠ .awaitKey r → (∃ k, s.nextTransaction = .keyPress k) ∨ s.nextTransaction = .reset

/-- 40_cycle.md R56, 60_exceptions.md R106: in HALTED, no transaction but a reset changes the block, and a reset with an
accepted image returns it to RUNNING. -/
def Obligations.HaltedUntilReset : Prop :=
  ∀ s, Halted s →
    (s.nextTransaction ≠ .reset → ∃ t, step s = .next t ∧ SameBlock s t ∧ t.out = s.out) ∧
    (s.nextTransaction = .reset → s.build.image.length ≤ 3584 → ∃ t, step s = .next t ∧ t.run = .running)

/-- 60_exceptions.md R110: a Tick lowers both timers by 1, clamped at 0, unless the block is HALTED, and writes nothing
else. -/
def Obligations.TickLowersBothTimers : Prop :=
  ∀ s, s.nextTransaction = .tick → ∃ t, step s = .next t ∧
    t = { s with dt := t.dt, st := t.st, schedule := s.schedule.tail } ∧
    (¬ Halted s → t.dt.toNat = s.dt.toNat - 1 ∧ t.st.toNat = s.st.toNat - 1) ∧
    (Halted s → t.dt = s.dt ∧ t.st = s.st)

/-- 95_test_vectors.md W9, for any number of Ticks: each timer falls by one a Tick and stays at 0. -/
def Obligations.TicksReachZeroAndStay : Prop :=
  ∀ (n : Nat) (s : State), ¬ Halted s → s.schedule = List.replicate n .tick →
    ∃ t : State, core.run n s = .next t ∧ t = { s with dt := t.dt, st := t.st, schedule := [] } ∧
      t.dt.toNat = s.dt.toNat - n ∧ t.st.toNat = s.st.toNat - n

/-- 60_exceptions.md R112: a key press ends a wait by writing the key's number to the waiting register; in RUNNING and
in HALTED it is dropped. -/
def Obligations.KeyPressEndsOnlyAWait : Prop :=
  ∀ s k, s.nextTransaction = .keyPress k → ∃ t, step s = .next t ∧
    (∀ r, s.run = .awaitKey r → t = { s with v := t.v, run := .running, schedule := s.schedule.tail } ∧
      ∀ j, t.reg j = if j = r then BitVec.ofNat 8 k.val else s.reg j) ∧
    ((∀ r, s.run ≠ .awaitKey r) → t = { s with schedule := s.schedule.tail })

/-- 45_keys_timers.md R96: FX0A leaves the block waiting with PC as it is; Steps and Ticks in any number and order go
by, the timers falling with the Ticks; the press then puts the key in `V[x]` and the block runs on. -/
def Obligations.WaitForKeyRunsToThePress : Prop :=
  (∀ x, decodeWord (wordXNN 0xF x 0x0A) = .ok (.ldVxK x)) ∧
  ∀ s x, ∃ t, exec (.ldVxK x) s = .next t ∧ t = { s with run := .awaitKey x } ∧
    ∀ (events : List Transaction) (k : Key), (∀ e ∈ events, e = .step ∨ e = .tick) →
      t.schedule = events ++ [.keyPress k] →
      ∃ u : State, core.run (events.length + 1) t = .next u ∧
        u = { s with v := u.v, dt := u.dt, st := u.st, run := .running, schedule := [] } ∧
        u.dt.toNat = s.dt.toNat - events.count .tick ∧ u.st.toNat = s.st.toNat - events.count .tick ∧
        ∀ j, u.reg j = if j = x then BitVec.ofNat 8 k.val else s.reg j

/-! ## Registers and the ALU -/

/-- 43_alu.md R75, R76: 6XNN loads a byte; 7XNN adds one modulo 256 and writes no flag. -/
def Obligations.ByteLoadAndAdd : Prop :=
  (∀ x nn, decodeWord (wordXNN 0x6 x nn) = .ok (.ldByte x nn) ∧ decodeWord (wordXNN 0x7 x nn) = .ok (.addByte x nn)) ∧
  ∀ s x nn, (∃ t, exec (.ldByte x nn) s = .next t ∧ RegWritten s t x nn) ∧
    ∃ t b, exec (.addByte x nn) s = .next t ∧ RegWritten s t x b ∧ b.toNat = ((s.reg x).toNat + nn.toNat) % 256

/-- 43_alu.md R77, R78, R79, R80: copy, OR, AND and XOR write `V[x]` and no flag. -/
def Obligations.CopyAndLogic : Prop :=
  (∀ x y, decodeWord (wordXYN 0x8 x y 0x0) = .ok (.ldReg x y) ∧ decodeWord (wordXYN 0x8 x y 0x1) = .ok (.orReg x y) ∧
    decodeWord (wordXYN 0x8 x y 0x2) = .ok (.andReg x y) ∧ decodeWord (wordXYN 0x8 x y 0x3) = .ok (.xorReg x y)) ∧
  ∀ s x y, (∃ t, exec (.ldReg x y) s = .next t ∧ RegWritten s t x (s.reg y)) ∧
    (∃ t, exec (.orReg x y) s = .next t ∧ RegWritten s t x (s.reg x ||| s.reg y)) ∧
    (∃ t, exec (.andReg x y) s = .next t ∧ RegWritten s t x (s.reg x &&& s.reg y)) ∧
    (∃ t, exec (.xorReg x y) s = .next t ∧ RegWritten s t x (s.reg x ^^^ s.reg y))

/-- 43_alu.md R81: 8XY4 adds modulo 256 and sets VF to the carry of the true sum. The clause of `FlagWritten` for x = F
with `VF_RESULT_LAST` true is a choice, not in R81: the parameter of 43_alu.md R74, assumption log 6. -/
def Obligations.AddSetsCarry : Prop :=
  (∀ x y, decodeWord (wordXYN 0x8 x y 0x4) = .ok (.addReg x y)) ∧
  ∀ s x y, ∃ t b, exec (.addReg x y) s = .next t ∧ b.toNat = ((s.reg x).toNat + (s.reg y).toNat) % 256 ∧
    FlagWritten s t x b (decide ((s.reg x).toNat + (s.reg y).toNat > 255))

/-- 43_alu.md R82, R84: 8XY5 and 8XY7 subtract modulo 256 and set VF to not-borrow. The clause of `FlagWritten` for x = F
with `VF_RESULT_LAST` true is a choice, not in R82 or R84: the parameter of 43_alu.md R74, assumption log 6. -/
def Obligations.SubtractsSetNotBorrow : Prop :=
  (∀ x y, decodeWord (wordXYN 0x8 x y 0x5) = .ok (.subReg x y) ∧ decodeWord (wordXYN 0x8 x y 0x7) = .ok (.subn x y)) ∧
  ∀ s x y,
    (∃ t b, exec (.subReg x y) s = .next t ∧ (b.toNat : Int) = ((s.reg x).toNat - (s.reg y).toNat : Int) % 256 ∧
      FlagWritten s t x b (decide ((s.reg x).toNat ≥ (s.reg y).toNat))) ∧
    (∃ t b, exec (.subn x y) s = .next t ∧ (b.toNat : Int) = ((s.reg y).toNat - (s.reg x).toNat : Int) % 256 ∧
      FlagWritten s t x b (decide ((s.reg y).toNat ≥ (s.reg x).toNat)))

/-- 43_alu.md R83, R85: the shifts take their source from `V[y]` with the quirk on and from `V[x]` with it off, move it
by one bit modulo 256, and set VF to the bit moved out. The clause of `FlagWritten` for x = F with `VF_RESULT_LAST` true is
a choice, not in R83 or R85: the parameter of 43_alu.md R74, assumption log 6. -/
def Obligations.ShiftsUseTheQuirkSource : Prop :=
  (∀ x y, decodeWord (wordXYN 0x8 x y 0x6) = .ok (.shr x y) ∧ decodeWord (wordXYN 0x8 x y 0xE) = .ok (.shl x y)) ∧
  ∀ s x y src, src = (if s.quirks.shiftUsesVy then s.reg y else s.reg x) →
    (∃ t b, exec (.shr x y) s = .next t ∧ b.toNat = src.toNat / 2 ∧ FlagWritten s t x b (decide (src.toNat % 2 = 1))) ∧
    (∃ t b, exec (.shl x y) s = .next t ∧ b.toNat = src.toNat * 2 % 256 ∧ FlagWritten s t x b (decide (src.toNat ≥ 128)))

/-- 43_alu.md section 4, for every byte the host may draw: CXNN writes the draw under the mask and consumes it. The
list of drawn bytes is the model's form of the random input (assumption log 3). -/
def Obligations.RandomByteUnderMask : Prop :=
  (∀ x nn, decodeWord (wordXNN 0xC x nn) = .ok (.rnd x nn)) ∧
  ∀ s x nn, ∃ t draw, exec (.rnd x nn) s = .next t ∧
    t = { s with v := t.v, rand := s.rand.tail, draws := s.draws + 1 } ∧
    (∀ b rest, s.rand = b :: rest → draw = b) ∧ ∀ k, t.reg k = if k = x then draw &&& nn else s.reg k

/-! ## Control flow and the call stack -/

/-- 42_control_flow.md R66: 1NNN puts its address in PC, zero-extended. -/
def Obligations.JumpSetsPc : Prop :=
  (∀ nnn, decodeWord (wordNNN 0x1 nnn) = .ok (.jp nnn)) ∧
  ∀ s nnn, ∃ t, exec (.jp nnn) s = .next t ∧ t = { s with pc := t.pc } ∧ t.pc.toNat = nnn.toNat

/-- 42_control_flow.md R72: BNNN puts in PC the unreduced sum of its address and V0, or `V[x]` with x the top nibble of
the address. -/
def Obligations.JumpAddsTheQuirkRegister : Prop :=
  (∀ nnn, ∃ x : Reg, x.val = nnn.toNat / 256 ∧ decodeWord (wordNNN 0xB nnn) = .ok (.jpV0 x nnn)) ∧
  ∀ s x nnn, ∃ t, exec (.jpV0 x nnn) s = .next t ∧ t = { s with pc := t.pc } ∧
    t.pc.toNat = nnn.toNat + (if s.quirks.jumpUsesV0 then s.reg 0 else s.reg x).toNat

/-- 42_control_flow.md R67, 60_exceptions.md R102: 2NNN pushes PC, already past it, and jumps; on a full stack it raises
STACK_OVERFLOW and pushes nothing. -/
def Obligations.CallPushesOrOverflows : Prop :=
  (∀ nnn, decodeWord (wordNNN 0x2 nnn) = .ok (.call nnn)) ∧
  ∀ s nnn,
    (∀ h : s.sp.val < 16, ∃ t, exec (.call nnn) s = .next t ∧
      t = { s with pc := t.pc, sp := t.sp, stack := s.stack.set s.sp.val s.pc h } ∧
      t.sp.val = s.sp.val + 1 ∧ t.pc.toNat = nnn.toNat) ∧
    (s.sp.val = 16 → ∃ t, exec (.call nnn) s = .next t ∧ Faulted s t .stackOverflow (wordNNN 0x2 nnn))

/-- 42_control_flow.md R65, 60_exceptions.md R101: 00EE pops the top of the stack into PC; on an empty stack it raises
STACK_UNDERFLOW and PC is not loaded from the stack. -/
def Obligations.ReturnPopsOrUnderflows : Prop :=
  decodeWord 0x00EE = .ok .ret ∧
  ∀ s,
    (∀ k : Fin 16, s.sp.val = k.val + 1 → ∃ t, exec .ret s = .next t ∧
      t = { s with pc := s.stack[k], sp := t.sp } ∧ t.sp.val = k.val) ∧
    (s.sp.val = 0 → ∃ t, exec .ret s = .next t ∧ Faulted s t .stackUnderflow 0x00EE)

/-- 40_cycle.md R54, 95_test_vectors.md W4: a call and then a return, from any state that keeps the stack as the call
left it, gives back PC (the address after the call) and SP. -/
def Obligations.ReturnUndoesCall : Prop :=
  ∀ s nnn t, s.sp.val < 16 → exec (.call nnn) s = .next t →
    ∀ u : State, u.sp = t.sp → u.stack = t.stack →
      ∃ u', exec .ret u = .next u' ∧ u'.pc = s.pc ∧ u'.sp = s.sp ∧ u' = { u with pc := u'.pc, sp := u'.sp }

/-- 42_control_flow.md R68, R69, R70, R71: a taken skip adds 2 to PC modulo 65536; a skip not taken changes nothing. -/
def Obligations.SkipsAddTwo : Prop :=
  (∀ x y nn, decodeWord (wordXNN 0x3 x nn) = .ok (.seByte x nn) ∧ decodeWord (wordXNN 0x4 x nn) = .ok (.sneByte x nn) ∧
    decodeWord (wordXYN 0x5 x y 0x0) = .ok (.seReg x y) ∧ decodeWord (wordXYN 0x9 x y 0x0) = .ok (.sneReg x y) ∧
    ∀ n, n ≠ 0 → decodeWord (wordXYN 0x5 x y n) = .error .unknownOpcode ∧
      decodeWord (wordXYN 0x9 x y n) = .error .unknownOpcode) ∧
  ∀ s x y nn, ∃ u : State, u = { s with pc := u.pc } ∧ u.pc.toNat = (s.pc.toNat + 2) % 65536 ∧
    exec (.seByte x nn) s = .next (if s.reg x = nn then u else s) ∧
    exec (.sneByte x nn) s = .next (if s.reg x = nn then s else u) ∧
    exec (.seReg x y) s = .next (if s.reg x = s.reg y then u else s) ∧
    exec (.sneReg x y) s = .next (if s.reg x = s.reg y then s else u)

/-! ## Keys and timers -/

/-- 45_keys_timers.md R93, R94, 60_exceptions.md R103: EX9E skips iff key `V[x]` is held, EXA1 iff it is not; above 15
both raise KEY_OUT_OF_RANGE and skip nothing. -/
def Obligations.KeySkipsOrFault : Prop :=
  (∀ x, decodeWord (wordXNN 0xE x 0x9E) = .ok (.skp x) ∧ decodeWord (wordXNN 0xE x 0xA1) = .ok (.sknp x)) ∧
  ∀ s x,
    ((s.reg x).toNat ≤ 15 → ∃ u : State, u = { s with pc := u.pc } ∧ u.pc.toNat = (s.pc.toNat + 2) % 65536 ∧
      exec (.skp x) s = .next (if s.keys.getLsbD (s.reg x).toNat then u else s) ∧
      exec (.sknp x) s = .next (if s.keys.getLsbD (s.reg x).toNat then s else u)) ∧
    ((s.reg x).toNat > 15 →
      (∃ t, exec (.skp x) s = .next t ∧ Faulted s t .keyOutOfRange (wordXNN 0xE x 0x9E)) ∧
      (∃ t, exec (.sknp x) s = .next t ∧ Faulted s t .keyOutOfRange (wordXNN 0xE x 0xA1)))

/-- 45_keys_timers.md R95, R97, R98: FX07 reads DT; FX15 writes DT; FX18 writes ST. -/
def Obligations.TimerMoves : Prop :=
  (∀ x, decodeWord (wordXNN 0xF x 0x07) = .ok (.ldVxDT x) ∧ decodeWord (wordXNN 0xF x 0x15) = .ok (.ldDTVx x) ∧
    decodeWord (wordXNN 0xF x 0x18) = .ok (.ldSTVx x)) ∧
  ∀ s x, (∃ t, exec (.ldVxDT x) s = .next t ∧ RegWritten s t x s.dt) ∧
    exec (.ldDTVx x) s = .next { s with dt := s.reg x } ∧ exec (.ldSTVx x) s = .next { s with st := s.reg x }

/-! ## The index register and memory -/

/-- 20_memory.md R33: every read and every write reduces its address modulo 4096, a word's two bytes one by one; a read
after a write gives the byte written at that cell and the old byte at every other. -/
def Obligations.AddressesWrapAndReadsSeeWrites : Prop :=
  ∀ (s : State) (a k : Nat) (b : Byte), s.readByte a = s.readByte (a % 4096) ∧
    s.writeByte a b = s.writeByte (a % 4096) b ∧
    (s.wordAt a).toNat = (s.readByte (a % 4096)).toNat * 256 + (s.readByte ((a + 1) % 4096)).toNat ∧
    (s.writeByte a b).readByte k = if k % 4096 = a % 4096 then b else s.readByte k

/-- Two memories in the canonical form that read alike at every address are the same list. The form is the model's own
choice, no rule of the spec: assumption log 5. -/
def Obligations.MemoriesThatReadAlikeAreEqual : Prop :=
  ∀ m m' : Memory, m.wf = true → m'.wf = true → (∀ a, a < 4096 → m.read a = m'.read a) → m = m'

/-- 44_index_memory.md R87, R88, R89: ANNN sets I; FX1E adds to it modulo 65536, with no flag; FX29 points it at the
glyph of the low nibble. -/
def Obligations.IndexIsSet : Prop :=
  (∀ nnn x, decodeWord (wordNNN 0xA nnn) = .ok (.ldI nnn) ∧ decodeWord (wordXNN 0xF x 0x1E) = .ok (.addI x) ∧
    decodeWord (wordXNN 0xF x 0x29) = .ok (.ldF x)) ∧
  ∀ s nnn x,
    (∃ t, exec (.ldI nnn) s = .next t ∧ t = { s with i := t.i } ∧ t.i.toNat = nnn.toNat) ∧
    (∃ t, exec (.addI x) s = .next t ∧ t = { s with i := t.i } ∧ t.i.toNat = (s.i.toNat + (s.reg x).toNat) % 65536) ∧
    (∃ t, exec (.ldF x) s = .next t ∧ t = { s with i := t.i } ∧ t.i.toNat = 0x050 + 5 * ((s.reg x).toNat % 16))

/-- 44_index_memory.md R90: FX33 stores the three decimal digits of `V[x]` at I, I + 1 and I + 2, and changes nothing
else. -/
def Obligations.DecimalDigitsAreStored : Prop :=
  (∀ x, decodeWord (wordXNN 0xF x 0x33) = .ok (.ldB x)) ∧
  ∀ s x, ∃ t, exec (.ldB x) s = .next t ∧ t = { s with mem := t.mem } ∧
    (t.readByte (s.indexed 0)).toNat = (s.reg x).toNat / 100 ∧
    (t.readByte (s.indexed 1)).toNat = (s.reg x).toNat / 10 % 10 ∧
    (t.readByte (s.indexed 2)).toNat = (s.reg x).toNat % 10 ∧
    ∀ a, (∀ b ∈ storedAddresses (.ldB x) s, a % 4096 ≠ b % 4096) → t.readByte a = s.readByte a

/-- 44_index_memory.md R91: FX55 stores V0 to Vx from I on, every other byte unchanged, and leaves I, or I + x + 1
modulo 65536 with the quirk on. -/
def Obligations.RegistersAreStored : Prop :=
  (∀ x, decodeWord (wordXNN 0xF x 0x55) = .ok (.storeRegs x)) ∧
  ∀ s x, ∃ t, exec (.storeRegs x) s = .next t ∧ t = { s with mem := t.mem, i := t.i } ∧
    (∀ k : Reg, k ≤ x → t.readByte (s.indexed k.val) = s.reg k) ∧
    (∀ a, (∀ b ∈ storedAddresses (.storeRegs x) s, a % 4096 ≠ b % 4096) → t.readByte a = s.readByte a) ∧
    t.i.toNat = if s.quirks.incrementI then (s.i.toNat + x.val + 1) % 65536 else s.i.toNat

/-- 44_index_memory.md R92: FX65 loads V0 to Vx from I on, the registers above unchanged, with the same rule for I. -/
def Obligations.RegistersAreLoaded : Prop :=
  (∀ x, decodeWord (wordXNN 0xF x 0x65) = .ok (.loadRegs x)) ∧
  ∀ s x, ∃ t, exec (.loadRegs x) s = .next t ∧ t = { s with v := t.v, i := t.i } ∧
    (∀ k : Reg, t.reg k = if k ≤ x then s.readByte (s.indexed k.val) else s.reg k) ∧
    t.i.toNat = if s.quirks.incrementI then (s.i.toNat + x.val + 1) % 65536 else s.i.toNat

/-- 44_index_memory.md R92 ("Inverse of FX55"): loading what was stored gives the registers back, from any state with
that memory, whatever its registers, once I is where it was. -/
def Obligations.LoadUndoesStore : Prop :=
  ∀ s x t u, exec (.storeRegs x) s = .next t → u.mem = t.mem → u.i = s.i →
    ∃ u', exec (.loadRegs x) u = .next u' ∧ ∀ k : Reg, u'.reg k = if k ≤ x then s.reg k else u.reg k

/-- 20_memory.md R42, 70_reset_and_hazards.md R124: two neighbouring bytes that FX55 stores at PC are the word the next
Step executes, and so for the digits of FX33. -/
def Obligations.StoredWordIsFetchedNext : Prop :=
  (∀ s x t, exec (.storeRegs x) s = .next t → ∀ k : Reg, ∀ k' : Reg, k'.val = k.val + 1 → k' ≤ x →
    s.indexed k.val % 4096 = s.pc.toNat % 4096 → t.fetchWord.toNat = (s.reg k).toNat * 256 + (s.reg k').toNat) ∧
  ∀ s x t, exec (.ldB x) s = .next t → s.indexed 0 % 4096 = s.pc.toNat % 4096 →
    t.fetchWord.toNat = (s.reg x).toNat / 100 * 256 + (s.reg x).toNat / 10 % 10

/-! ## Display -/

/-- 41_display.md R59: 00E0 clears every cell, emits Clear and then the cleared framebuffer, and touches no register and
no memory. -/
def Obligations.ClearScreen : Prop :=
  decodeWord 0x00E0 = .ok .cls ∧
  ∀ s, ∃ t, exec .cls s = .next t ∧ (∀ row col, t.cell row col = false) ∧
    t = { s with fb := t.fb, out := s.out ++ [.clear, .present t.fb] }

/-- 41_display.md R60, R61, R62, R63, R64: DXYN toggles exactly the cells under the sprite's visible 1 bits, its origin
wrapped and its pixels clipped; VF is 1 iff one of them was lit; one Present follows; nothing else changes. -/
def Obligations.DrawTogglesTheVisibleSprite : Prop :=
  (∀ x y n, decodeWord (wordXYN 0xD x y n) = .ok (.drw x y n)) ∧
  ∀ s x y n, ∃ t, exec (.drw x y n) s = .next t ∧
    t = { s with v := t.v, fb := t.fb, out := s.out ++ [.present t.fb] } ∧
    (∀ row col, t.cell row col = Bool.xor (s.cell row col) (drwPixel s x y n row col)) ∧
    ((∃ row col, s.cell row col = true ∧ drwPixel s x y n row col = true) → t.reg VF = 1) ∧
    ((∀ row col, s.cell row col = true → drwPixel s x y n row col = false) → t.reg VF = 0) ∧
    ∀ k, k ≠ VF → t.reg k = s.reg k

/-- 90_conflicts.md C7 (95_test_vectors.md W5): drawing the same sprite twice restores the framebuffer, and the second
draw's VF is 1 exactly when some visible 1 bit fell on an unlit cell. -/
def Obligations.DrawTwiceRestores : Prop :=
  ∀ s x y n, x ≠ VF → y ≠ VF → ∃ t u, exec (.drw x y n) s = .next t ∧ exec (.drw x y n) t = .next u ∧ u.fb = s.fb ∧
    (u.reg VF = 1 ↔ ∃ row col, s.cell row col = false ∧ drwPixel s x y n row col = true)

/-! ## Whole-machine rules -/

/-- 10_state.md section 2: no instruction changes a general register that is not its destination or its flag. -/
def Obligations.RegistersHaveTheirWriters : Prop :=
  ∀ i s t, exec i s = .next t → ∀ k, k ∉ destRegs i → t.reg k = s.reg k

/-- 20_memory.md R32: no instruction changes a byte outside the addresses it stores to; only FX33 and FX55 store. -/
def Obligations.MemoryHasItsWriters : Prop :=
  ∀ i s t, exec i s = .next t → ∀ a, (∀ b ∈ storedAddresses i s, a % 4096 ≠ b % 4096) → t.readByte a = s.readByte a

/-- 10_state.md sections 3 to 10: the writers of I, the stack, the timers, the framebuffer, PC and RUN, and that no
instruction writes QUIRKS, the construction or the host's schedule and keys. -/
def Obligations.OtherStateHasItsWriters : Prop :=
  ∀ i s t, exec i s = .next t →
    (t.i ≠ s.i → ∃ x nnn, i = .ldI nnn ∨ i = .addI x ∨ i = .ldF x ∨
      (s.quirks.incrementI = true ∧ (i = .storeRegs x ∨ i = .loadRegs x))) ∧
    (t.stack ≠ s.stack → ∃ nnn, i = .call nnn) ∧
    (t.sp ≠ s.sp → (∃ nnn, i = .call nnn ∧ t.sp.val = s.sp.val + 1) ∨ (i = .ret ∧ t.sp.val + 1 = s.sp.val)) ∧
    (t.dt ≠ s.dt → ∃ x, i = .ldDTVx x) ∧ (t.st ≠ s.st → ∃ x, i = .ldSTVx x) ∧
    (t.fb ≠ s.fb → i = .cls ∨ ∃ x y n, i = .drw x y n) ∧ (t.out ≠ s.out → i = .cls ∨ ∃ x y n, i = .drw x y n) ∧
    (t.pc ≠ s.pc → t.pc = s.pc + 2 ∨ i = .ret ∨ ∃ x nnn, i = .jp nnn ∨ i = .call nnn ∨ i = .jpV0 x nnn) ∧
    (t.run ≠ s.run → (∃ x, i = .ldVxK x) ∨ ∃ code p, t.run = .halted code p (encode i) ∧
      (i = .ret ∨ ∃ x nnn, i = .call nnn ∨ i = .skp x ∨ i = .sknp x)) ∧
    (t.draws ≠ s.draws ∨ t.rand ≠ s.rand → ∃ x nn, i = .rnd x nn) ∧
    t.quirks = s.quirks ∧ t.build = s.build ∧ t.schedule = s.schedule ∧ t.keys = s.keys

/-- No instruction and no step stops the machine. That an error of the block (60_exceptions.md R105) is a next state is the
model's reading, assumption log 9; that `exec` is defined in every run state is the model's choice, assumption log 20. -/
def Obligations.EveryStepAnswersNext : Prop :=
  (∀ i s, ∃ t, exec i s = .next t) ∧ ∀ s, ∃ t, step s = .next t

/-- 10_state.md R27: QUIRKS and the construction inputs stay the same through every transaction. -/
def Obligations.QuirksNeverChange : Prop :=
  ∀ s t, s.quirks = s.build.quirks → step s = .next t → t.quirks = s.quirks ∧ t.build = s.build

/-- 10_state.md R22 (ST is "read by no instruction"): a different ST makes no difference but to ST, which only FX18
replaces. -/
def Obligations.SoundTimerIsReadByNothing : Prop :=
  ∀ i s b, ((∀ x, i ≠ .ldSTVx x) → exec i { s with st := b } = mapNext (fun t => { t with st := b }) (exec i s)) ∧
    ∀ x, exec (.ldSTVx x) { s with st := b } = exec (.ldSTVx x) s

/-- 00_scope.md R8: KEYS is read by EX9E and EXA1 only; other keys held make no difference to any other instruction. -/
def Obligations.KeysAreReadBySkipsOnly : Prop :=
  ∀ i s keys, (∀ x, i ≠ .skp x ∧ i ≠ .sknp x) →
    exec i { s with keys := keys } = mapNext (fun t => { t with keys := keys }) (exec i s)

/-- 10_state.md R29: stack entries not in use are unobservable. Two states that differ in them only step to two states
that differ in them only. -/
def Obligations.StaleStackEntriesAreUnobservable : Prop :=
  ∀ s s' t, SameUpToStale s s' → step s = .next t → ∃ t', step s' = .next t' ∧ SameUpToStale t t'

/-- The block's invariant holds after reset, for every construction. Memory's canonical form in it is the model's own
choice, assumption log 5. -/
def Obligations.ResetMeetsInv : Prop := ∀ c : Construction, BlockInv (State.resetWith c)

/-- Every transaction keeps the block's invariant: memory stays canonical (the form is the model's own choice, assumption
log 5), QUIRKS stays the construction's, and RUN
tells the truth about waits and faults (60_exceptions.md R105; 45_keys_timers.md R96). -/
def Obligations.StepKeepsInv : Prop := ∀ s t, BlockInv s → step s = .next t → BlockInv t
end

