-- ==== Sys2Proof/Laws/Draw.lean ====
section
/-! SUPPORT. What drawing does to each cell and to the collision, without the loops (41_display.md R60 to R63). -/

namespace Sys2Proof.Machine

/-- The cell of a framebuffer at any row and column; false outside the grid. -/
def Frame.at (f : Frame) (r c : Nat) : Bool := if h : r ≤ 31 ∧ c ≤ 63 then (f[r]'(by omega))[c]'(by omega) else false

theorem Frame.at_fin (f : Frame) (r : Fin 32) (c : Fin 64) : f[r][c] = f.at r c := by
  have hr := r.isLt
  have hc := c.isLt
  have h : r.val ≤ 31 ∧ c.val ≤ 63 := by omega
  simp only [Frame.at, h, and_self, dif_pos, Fin.getElem_fin]

/-- A drawing after some bits: each cell toggled by its bit, a collision where a bit met a lit cell. -/
structure Toggled (d e : Drawing) (bits : Nat → Nat → Bool) : Prop where
  cells : ∀ r c, r ≤ 31 → c ≤ 63 → e.fb.at r c = Bool.xor (d.fb.at r c) (bits r c)
  hits : e.hit = true ↔ d.hit = true ∨ ∃ r c, r ≤ 31 ∧ c ≤ 63 ∧ d.fb.at r c = true ∧ bits r c = true

theorem Toggled.refl (d : Drawing) : Toggled d d (fun _ _ => false) := ⟨by simp, by simp⟩

/-- Drawing in two parts that share no cell. -/
theorem Toggled.trans {d e f : Drawing} {p q : Nat → Nat → Bool} (h1 : Toggled d e p) (h2 : Toggled e f q)
    (disjoint : ∀ r c, p r c = true → q r c = false) : Toggled d f (fun r c => p r c || q r c) := by
  constructor
  · intro r c hr hc
    rw [h2.cells r c hr hc, h1.cells r c hr hc]
    have := disjoint r c
    cases hp : p r c <;> cases hq : q r c <;> simp_all
  · rw [h2.hits, h1.hits]
    constructor
    · rintro ((h | ⟨r, c, hr, hc, hd, hp⟩) | ⟨r, c, hr, hc, he, hq⟩)
      · exact .inl h
      · exact .inr ⟨r, c, hr, hc, hd, by simp [hp]⟩
      · refine .inr ⟨r, c, hr, hc, ?_, by simp [hq]⟩
        have hpf : p r c = false := by
          cases hp : p r c with
          | false => rfl
          | true => have := disjoint r c hp; simp_all
        rw [h1.cells r c hr hc, hpf] at he
        simpa using he
    · rintro (h | ⟨r, c, hr, hc, hd, hpq⟩)
      · exact .inl (.inl h)
      · cases hp : p r c with
        | true => exact .inl (.inr ⟨r, c, hr, hc, hd, hp⟩)
        | false =>
          refine .inr ⟨r, c, hr, hc, ?_, by simpa [hp] using hpq⟩
          rw [h1.cells r c hr hc, hd, hp]; rfl

theorem Toggled.congr {d e : Drawing} {p q : Nat → Nat → Bool} (h : Toggled d e p)
    (hpq : ∀ r c, r ≤ 31 → c ≤ 63 → p r c = q r c) : Toggled d e q := by
  constructor
  · intro r c hr hc; rw [h.cells r c hr hc, hpq r c hr hc]
  · rw [h.hits]
    constructor
    · rintro (h | ⟨r, c, hr, hc, hd, hp⟩)
      · exact .inl h
      · exact .inr ⟨r, c, hr, hc, hd, by rw [← hpq r c hr hc, hp]⟩
    · rintro (h | ⟨r, c, hr, hc, hd, hp⟩)
      · exact .inl h
      · exact .inr ⟨r, c, hr, hc, hd, by rw [hpq r c hr hc, hp]⟩

/-- One bit toggles its own cell, if the cell is in the grid. -/
theorem drawCell_toggled (row col : Nat) (bit : Bool) (d : Drawing) :
    Toggled d (drawCell row col bit d) (fun r c => decide (r = row ∧ c = col) && bit) := by
  unfold drawCell
  split
  · rename_i h
    cases bit with
    | false => simpa using Toggled.refl d
    | true =>
      constructor
      · intro r c hr hc
        simp only [Frame.at, hr, hc, and_self, dif_pos, if_true, Vector.getElem_set]
        by_cases hrr : row = r
        · subst hrr
          by_cases hcc : col = c
          · subst hcc; simp
          · simp [hcc, Ne.symm hcc]
        · simp [hrr, Ne.symm hrr]
      · simp only [if_true, Bool.or_eq_true, Bool.and_true, decide_eq_true_eq]
        constructor
        · rintro (h' | h')
          · exact .inl h'
          · exact .inr ⟨row, col, h.1, h.2, by simpa [Frame.at, h] using h', rfl, rfl⟩
        · rintro (h' | ⟨r, c, hr, hc, hd, rfl, rfl⟩)
          · exact .inl h'
          · exact .inr (by simpa [Frame.at, h] using hd)
  · rename_i h
    refine (Toggled.refl d).congr fun r c hr hc => ?_
    have : ¬ (r = row ∧ c = col) := by rintro ⟨rfl, rfl⟩; exact h ⟨hr, hc⟩
    simp [this]

/-- The bit of one sprite row at a cell: columns `col0 + (8 - k)` to `col0 + 7`, most-significant bit leftmost. -/
def rowBit (k row col0 : Nat) (b : Byte) (r c : Nat) : Bool :=
  decide (r = row ∧ col0 + 8 ≤ c + k ∧ c < col0 + 8) && b.getLsbD (7 - (c - col0))

theorem drawColumns_toggled (k row col0 : Nat) (b : Byte) (d : Drawing) (hk : k ≤ 8) :
    Toggled d (drawColumns k row col0 b d) (rowBit k row col0 b) := by
  induction k generalizing d with
  | zero =>
    refine (Toggled.refl d).congr fun r c _ _ => ?_
    have : ¬ (r = row ∧ col0 + 8 ≤ c + 0 ∧ c < col0 + 8) := by omega
    simp only [rowBit, this, decide_false, Bool.false_and]
  | succ k ih =>
    refine ((drawCell_toggled row (col0 + (7 - k)) (b.getLsbD k) d).trans (ih _ (by omega)) ?_).congr ?_
    · intro r c h
      simp only [Bool.and_eq_true, decide_eq_true_eq] at h
      have : ¬ (r = row ∧ col0 + 8 ≤ c + k ∧ c < col0 + 8) := by omega
      simp only [rowBit, this, decide_false, Bool.false_and]
    · intro r c _ _
      by_cases h : r = row ∧ c = col0 + (7 - k)
      · obtain ⟨rfl, rfl⟩ := h
        have h1 : ¬ (col0 + 8 ≤ col0 + (7 - k) + k) := by omega
        have h2 : col0 + 8 ≤ col0 + (7 - k) + (k + 1) ∧ col0 + (7 - k) < col0 + 8 := by omega
        have h3 : 7 - (7 - k) = k := by omega
        simp [rowBit, h1, h2, h3]
      · have h2 : (r = row ∧ col0 + 8 ≤ c + (k + 1) ∧ c < col0 + 8) ↔ (r = row ∧ col0 + 8 ≤ c + k ∧ c < col0 + 8) := by
          omega
        simp only [rowBit, h, h2, decide_false, Bool.false_and, Bool.false_or]

/-- The bit of a sprite at a cell: row `r - row0` of the sprite, column `c - col0`, most-significant bit leftmost. -/
def spriteBit (col0 row0 : Nat) (rows : List Byte) (r c : Nat) : Bool :=
  decide (row0 ≤ r ∧ r < row0 + rows.length ∧ col0 ≤ c ∧ c < col0 + 8) &&
    (rows.getD (r - row0) 0).getLsbD (7 - (c - col0))

theorem drawRows_toggled (col0 row0 : Nat) (rows : List Byte) (d : Drawing) :
    Toggled d (drawRows col0 row0 rows d) (spriteBit col0 row0 rows) := by
  induction rows generalizing row0 d with
  | nil =>
    refine (Toggled.refl d).congr fun r c _ _ => ?_
    have : ¬ (row0 ≤ r ∧ r < row0 + ([] : List Byte).length ∧ col0 ≤ c ∧ c < col0 + 8) := by simp; omega
    simp only [spriteBit, this, decide_false, Bool.false_and]
  | cons b bs ih =>
    refine ((drawColumns_toggled 8 row0 col0 b d (by omega)).trans (ih (row0 + 1) _) ?_).congr ?_
    · intro r c h
      simp only [rowBit, Bool.and_eq_true, decide_eq_true_eq] at h
      have : ¬ (row0 + 1 ≤ r ∧ r < row0 + 1 + bs.length ∧ col0 ≤ c ∧ c < col0 + 8) := by omega
      simp only [spriteBit, this, decide_false, Bool.false_and]
    · intro r c _ _
      by_cases h : r = row0
      · subst h
        have h1 : ¬ (r + 1 ≤ r ∧ r < r + 1 + bs.length ∧ col0 ≤ c ∧ c < col0 + 8) := by omega
        have h2 : (col0 + 8 ≤ c + 8 ∧ c < col0 + 8) ↔
            (r ≤ r ∧ r < r + (b :: bs).length ∧ col0 ≤ c ∧ c < col0 + 8) := by
          simp only [List.length_cons]
          constructor
          · intro h; omega
          · intro h; omega
        simp only [rowBit, spriteBit, h1, ← h2, true_and, decide_false, Bool.false_and, Bool.or_false, Nat.sub_self,
          List.getD_cons_zero]
      · have h1 : ¬ (r = row0 ∧ col0 + 8 ≤ c + 8 ∧ c < col0 + 8) := by omega
        have h2 : (row0 + 1 ≤ r ∧ r < row0 + 1 + bs.length ∧ col0 ≤ c ∧ c < col0 + 8) ↔
            (row0 ≤ r ∧ r < row0 + (b :: bs).length ∧ col0 ≤ c ∧ c < col0 + 8) := by
          simp only [List.length_cons]; omega
        simp only [rowBit, spriteBit, h1, h2, decide_false, Bool.false_and, Bool.false_or]
        by_cases h3 : row0 < r
        · have e : r - row0 = (r - (row0 + 1)) + 1 := by omega
          simp only [e, List.getD_cons_succ]
        · have h4 : ¬ (row0 ≤ r ∧ r < row0 + (b :: bs).length ∧ col0 ≤ c ∧ c < col0 + 8) := by omega
          simp only [h4, decide_false, Bool.false_and]

/-- Drawing a sprite of the state: every cell toggled by the sprite's bit, a collision where a bit met a lit cell. -/
theorem State.drawSprite_toggled (s : State) (row0 col0 n : Nat) :
    Toggled { fb := s.fb, hit := false } (s.drawSprite row0 col0 n) (spriteBit col0 row0 (s.spriteRows n)) :=
  drawRows_toggled _ _ _ _

end Sys2Proof.Machine
end

