-- ==== Sys2Proof/Laws/Memory.lean ====
section
/-! SUPPORT. The laws of memory as data: what a read gives after each operation, and that every operation keeps the
canonical form. -/

namespace Sys2Proof.Machine

theorem Memory.read_erase (m : Memory) (a k : Nat) :
    (m.erase a).read k = if k = a then initialByte a else m.read k := by
  induction m with
  | nil => simp only [Memory.erase, Memory.read]; split <;> simp_all
  | cons c rest ih =>
    obtain ⟨j, b⟩ := c
    simp only [Memory.erase, Memory.read]
    split
    · rw [ih]; split <;> simp_all
      intro h; simp_all
    · simp only [Memory.read, ih]; split <;> simp_all

/-- An address that no cell of memory lists. -/
def Memory.unlisted (m : Memory) (a : Nat) : Prop := ∀ c ∈ m, c.1 ≠ a

theorem Memory.erase_unlisted (m : Memory) (a : Nat) : (m.erase a).unlisted a := by
  induction m with
  | nil => simp [Memory.erase, Memory.unlisted]
  | cons c rest ih =>
    obtain ⟨j, b⟩ := c
    simp only [Memory.erase]
    split
    · exact ih
    · intro c hc
      rcases List.mem_cons.mp hc with rfl | hc
      · assumption
      · exact ih c hc

theorem Memory.read_insert (m : Memory) (a k : Nat) (v : Byte) (h : m.unlisted a) :
    (m.insert a v).read k = if k = a then v else m.read k := by
  induction m with
  | nil => simp only [Memory.insert, Memory.read]; split <;> simp_all [eq_comm]
  | cons c rest ih =>
    obtain ⟨j, b⟩ := c
    have hj : j ≠ a := h (j, b) (by simp)
    have hr : Memory.unlisted rest a := fun c hc => h c (by simp [hc])
    simp only [Memory.insert]
    split
    · simp only [Memory.read]
      by_cases hk : k = a
      · simp [hk]
      · simp [hk, Ne.symm hk]
    · simp only [Memory.read, ih hr]
      by_cases hk : j = k
      · subst hk; simp [hj]
      · simp [hk]

/-- Read after write, for every list of cells. -/
@[simp] theorem Memory.read_write (m : Memory) (a k : Nat) (v : Byte) :
    (m.write a v).read k = if k = a then v else m.read k := by
  unfold Memory.write
  split
  · rw [Memory.read_erase]; split <;> simp_all
  · rw [Memory.read_insert _ _ _ _ (m.erase_unlisted a), Memory.read_erase]; split <;> simp_all

/-! ## The canonical form -/

theorem Memory.wfFrom_mono (m : Memory) (lo lo' : Nat) (h : lo' ≤ lo) (hm : m.wfFrom lo = true) :
    m.wfFrom lo' = true := by
  cases m with
  | nil => rfl
  | cons c rest =>
    obtain ⟨j, b⟩ := c
    simp only [Memory.wfFrom, Bool.and_eq_true, decide_eq_true_eq] at *
    exact ⟨⟨by omega, hm.1.2⟩, hm.2⟩

theorem Memory.wfFrom_erase (m : Memory) (lo a : Nat) (hm : m.wfFrom lo = true) : (m.erase a).wfFrom lo = true := by
  induction m generalizing lo with
  | nil => rfl
  | cons c rest ih =>
    obtain ⟨j, b⟩ := c
    simp only [Memory.wfFrom, Bool.and_eq_true, decide_eq_true_eq] at hm
    simp only [Memory.erase]
    split
    · exact ih _ (Memory.wfFrom_mono _ _ _ (by omega) hm.2)
    · simp only [Memory.wfFrom, Bool.and_eq_true, decide_eq_true_eq]
      exact ⟨hm.1, ih _ hm.2⟩

theorem Memory.wfFrom_insert (m : Memory) (lo a : Nat) (v : Byte) (hm : m.wfFrom lo = true) (hlo : lo ≤ a)
    (ha : a < Config.memorySize) (hv : v ≠ initialByte a) (hu : m.unlisted a) : (m.insert a v).wfFrom lo = true := by
  induction m generalizing lo with
  | nil => simp [Memory.insert, Memory.wfFrom, hlo, ha, hv]
  | cons c rest ih =>
    obtain ⟨j, b⟩ := c
    have hj : j ≠ a := hu (j, b) (by simp)
    have hr : Memory.unlisted rest a := fun c hc => hu c (by simp [hc])
    simp only [Memory.wfFrom, Bool.and_eq_true, decide_eq_true_eq] at hm
    simp only [Memory.insert]
    split
    · simp only [Memory.wfFrom, Bool.and_eq_true, decide_eq_true_eq]
      exact ⟨⟨hlo, ha, hv⟩, ⟨by omega, hm.1.2⟩, hm.2⟩
    · simp only [Memory.wfFrom, Bool.and_eq_true, decide_eq_true_eq]
      exact ⟨hm.1, ih _ hm.2 (by omega) hr⟩

/-- A write to an address of memory keeps the canonical form. -/
theorem Memory.wf_write (m : Memory) (a : Nat) (v : Byte) (ha : a < Config.memorySize) (hm : m.wf = true) :
    (m.write a v).wf = true := by
  unfold Memory.write Memory.wf
  split
  · exact Memory.wfFrom_erase _ _ _ hm
  · exact Memory.wfFrom_insert _ _ _ _ (Memory.wfFrom_erase _ _ _ hm) (by omega) ha ‹_› (m.erase_unlisted a)

/-! ## The loader -/

theorem loadBytes_wf (bs : List Byte) (m : Memory) (a : Nat) (h : a + bs.length ≤ Config.memorySize)
    (hm : m.wf = true) : (loadBytes m a bs).wf = true := by
  induction bs generalizing m a with
  | nil => exact hm
  | cons b bs ih =>
    simp only [List.length_cons] at h
    exact ih _ _ (by omega) (Memory.wf_write _ _ _ (by omega) hm)

/-- A loaded range reads as its bytes, every other address as before. -/
theorem loadBytes_read (bs : List Byte) (m : Memory) (a k : Nat) :
    (loadBytes m a bs).read k = if a ≤ k ∧ k < a + bs.length then bs.getD (k - a) 0 else m.read k := by
  induction bs generalizing m a with
  | nil => simp [loadBytes]
  | cons b bs ih =>
    rw [loadBytes, ih, Memory.read_write]
    by_cases h : k = a
    · subst h; simp
    · by_cases h2 : a < k
      · have e : k - a = (k - (a + 1)) + 1 := by omega
        simp only [h, if_false, e, List.length_cons, List.getD_cons_succ]
        have : (a + 1 ≤ k ∧ k < a + 1 + bs.length) ↔ (a ≤ k ∧ k < a + (bs.length + 1)) := by omega
        simp only [this]
      · have h3 : ¬ (a + 1 ≤ k ∧ k < a + 1 + bs.length) := by omega
        have h4 : ¬ (a ≤ k ∧ k < a + (b :: bs).length) := by omega
        simp only [h3, h4, h, if_false]

theorem loadedMemory_wf (c : Construction) : (loadedMemory c).wf = true := by
  unfold loadedMemory
  have hf : (loadBytes [] Config.fontBase c.font.toList).wf = true := loadBytes_wf _ _ _ (by simp [Config.fontBase, Config.memorySize]) rfl
  by_cases h : imageAccepted c = true
  · simp only [h, if_true]
    refine loadBytes_wf _ _ _ ?_ hf
    simp only [imageAccepted, Config.maxImage, decide_eq_true_eq] at h
    simp only [Config.progBase, Config.memorySize]
    omega
  · simp only [h]; exact hf

end Sys2Proof.Machine
end

