-- ==== Sys2Proof/Laws/State.lean ====
section
/-! SUPPORT. One lemma per field per named update of the state, and what each update leaves of the readers
`reg`, `readByte` and `cell`. Each is true by unfolding the update once. -/

namespace Sys2Proof.Machine

variable (s : State)

/-! ## setReg -/

@[simp] theorem State.setReg_v (x : Reg) (b : Byte) : (s.setReg x b).v = s.v.set x b := rfl
@[simp] theorem State.setReg_i (x : Reg) (b : Byte) : (s.setReg x b).i = s.i := rfl
@[simp] theorem State.setReg_pc (x : Reg) (b : Byte) : (s.setReg x b).pc = s.pc := rfl
@[simp] theorem State.setReg_sp (x : Reg) (b : Byte) : (s.setReg x b).sp = s.sp := rfl
@[simp] theorem State.setReg_stack (x : Reg) (b : Byte) : (s.setReg x b).stack = s.stack := rfl
@[simp] theorem State.setReg_dt (x : Reg) (b : Byte) : (s.setReg x b).dt = s.dt := rfl
@[simp] theorem State.setReg_st (x : Reg) (b : Byte) : (s.setReg x b).st = s.st := rfl
@[simp] theorem State.setReg_mem (x : Reg) (b : Byte) : (s.setReg x b).mem = s.mem := rfl
@[simp] theorem State.setReg_fb (x : Reg) (b : Byte) : (s.setReg x b).fb = s.fb := rfl
@[simp] theorem State.setReg_quirks (x : Reg) (b : Byte) : (s.setReg x b).quirks = s.quirks := rfl
@[simp] theorem State.setReg_run (x : Reg) (b : Byte) : (s.setReg x b).run = s.run := rfl
@[simp] theorem State.setReg_build (x : Reg) (b : Byte) : (s.setReg x b).build = s.build := rfl
@[simp] theorem State.setReg_schedule (x : Reg) (b : Byte) : (s.setReg x b).schedule = s.schedule := rfl
@[simp] theorem State.setReg_keys (x : Reg) (b : Byte) : (s.setReg x b).keys = s.keys := rfl
@[simp] theorem State.setReg_rand (x : Reg) (b : Byte) : (s.setReg x b).rand = s.rand := rfl
@[simp] theorem State.setReg_draws (x : Reg) (b : Byte) : (s.setReg x b).draws = s.draws := rfl
@[simp] theorem State.setReg_out (x : Reg) (b : Byte) : (s.setReg x b).out = s.out := rfl
@[simp] theorem State.setReg_readByte (x : Reg) (b : Byte) (k : Nat) : (s.setReg x b).readByte k = s.readByte k := rfl
@[simp] theorem State.setReg_cell (x : Reg) (b : Byte) (r' : Fin 32) (c' : Fin 64) : (s.setReg x b).cell r' c' = s.cell r' c' := rfl
@[simp] theorem State.setReg_indexed (x : Reg) (b : Byte) (k : Nat) : (s.setReg x b).indexed k = s.indexed k := rfl

/-! ## setI -/

@[simp] theorem State.setI_v (a : Word) : (s.setI a).v = s.v := rfl
@[simp] theorem State.setI_i (a : Word) : (s.setI a).i = a := rfl
@[simp] theorem State.setI_pc (a : Word) : (s.setI a).pc = s.pc := rfl
@[simp] theorem State.setI_sp (a : Word) : (s.setI a).sp = s.sp := rfl
@[simp] theorem State.setI_stack (a : Word) : (s.setI a).stack = s.stack := rfl
@[simp] theorem State.setI_dt (a : Word) : (s.setI a).dt = s.dt := rfl
@[simp] theorem State.setI_st (a : Word) : (s.setI a).st = s.st := rfl
@[simp] theorem State.setI_mem (a : Word) : (s.setI a).mem = s.mem := rfl
@[simp] theorem State.setI_fb (a : Word) : (s.setI a).fb = s.fb := rfl
@[simp] theorem State.setI_quirks (a : Word) : (s.setI a).quirks = s.quirks := rfl
@[simp] theorem State.setI_run (a : Word) : (s.setI a).run = s.run := rfl
@[simp] theorem State.setI_build (a : Word) : (s.setI a).build = s.build := rfl
@[simp] theorem State.setI_schedule (a : Word) : (s.setI a).schedule = s.schedule := rfl
@[simp] theorem State.setI_keys (a : Word) : (s.setI a).keys = s.keys := rfl
@[simp] theorem State.setI_rand (a : Word) : (s.setI a).rand = s.rand := rfl
@[simp] theorem State.setI_draws (a : Word) : (s.setI a).draws = s.draws := rfl
@[simp] theorem State.setI_out (a : Word) : (s.setI a).out = s.out := rfl
@[simp] theorem State.setI_reg (a : Word) (k : Reg) : (s.setI a).reg k = s.reg k := rfl
@[simp] theorem State.setI_readByte (a : Word) (k : Nat) : (s.setI a).readByte k = s.readByte k := rfl
@[simp] theorem State.setI_cell (a : Word) (r' : Fin 32) (c' : Fin 64) : (s.setI a).cell r' c' = s.cell r' c' := rfl

/-! ## setPc -/

@[simp] theorem State.setPc_v (a : Word) : (s.setPc a).v = s.v := rfl
@[simp] theorem State.setPc_i (a : Word) : (s.setPc a).i = s.i := rfl
@[simp] theorem State.setPc_pc (a : Word) : (s.setPc a).pc = a := rfl
@[simp] theorem State.setPc_sp (a : Word) : (s.setPc a).sp = s.sp := rfl
@[simp] theorem State.setPc_stack (a : Word) : (s.setPc a).stack = s.stack := rfl
@[simp] theorem State.setPc_dt (a : Word) : (s.setPc a).dt = s.dt := rfl
@[simp] theorem State.setPc_st (a : Word) : (s.setPc a).st = s.st := rfl
@[simp] theorem State.setPc_mem (a : Word) : (s.setPc a).mem = s.mem := rfl
@[simp] theorem State.setPc_fb (a : Word) : (s.setPc a).fb = s.fb := rfl
@[simp] theorem State.setPc_quirks (a : Word) : (s.setPc a).quirks = s.quirks := rfl
@[simp] theorem State.setPc_run (a : Word) : (s.setPc a).run = s.run := rfl
@[simp] theorem State.setPc_build (a : Word) : (s.setPc a).build = s.build := rfl
@[simp] theorem State.setPc_schedule (a : Word) : (s.setPc a).schedule = s.schedule := rfl
@[simp] theorem State.setPc_keys (a : Word) : (s.setPc a).keys = s.keys := rfl
@[simp] theorem State.setPc_rand (a : Word) : (s.setPc a).rand = s.rand := rfl
@[simp] theorem State.setPc_draws (a : Word) : (s.setPc a).draws = s.draws := rfl
@[simp] theorem State.setPc_out (a : Word) : (s.setPc a).out = s.out := rfl
@[simp] theorem State.setPc_reg (a : Word) (k : Reg) : (s.setPc a).reg k = s.reg k := rfl
@[simp] theorem State.setPc_readByte (a : Word) (k : Nat) : (s.setPc a).readByte k = s.readByte k := rfl
@[simp] theorem State.setPc_cell (a : Word) (r' : Fin 32) (c' : Fin 64) : (s.setPc a).cell r' c' = s.cell r' c' := rfl
@[simp] theorem State.setPc_indexed (a : Word) (k : Nat) : (s.setPc a).indexed k = s.indexed k := rfl

/-! ## setDt -/

@[simp] theorem State.setDt_v (b : Byte) : (s.setDt b).v = s.v := rfl
@[simp] theorem State.setDt_i (b : Byte) : (s.setDt b).i = s.i := rfl
@[simp] theorem State.setDt_pc (b : Byte) : (s.setDt b).pc = s.pc := rfl
@[simp] theorem State.setDt_sp (b : Byte) : (s.setDt b).sp = s.sp := rfl
@[simp] theorem State.setDt_stack (b : Byte) : (s.setDt b).stack = s.stack := rfl
@[simp] theorem State.setDt_dt (b : Byte) : (s.setDt b).dt = b := rfl
@[simp] theorem State.setDt_st (b : Byte) : (s.setDt b).st = s.st := rfl
@[simp] theorem State.setDt_mem (b : Byte) : (s.setDt b).mem = s.mem := rfl
@[simp] theorem State.setDt_fb (b : Byte) : (s.setDt b).fb = s.fb := rfl
@[simp] theorem State.setDt_quirks (b : Byte) : (s.setDt b).quirks = s.quirks := rfl
@[simp] theorem State.setDt_run (b : Byte) : (s.setDt b).run = s.run := rfl
@[simp] theorem State.setDt_build (b : Byte) : (s.setDt b).build = s.build := rfl
@[simp] theorem State.setDt_schedule (b : Byte) : (s.setDt b).schedule = s.schedule := rfl
@[simp] theorem State.setDt_keys (b : Byte) : (s.setDt b).keys = s.keys := rfl
@[simp] theorem State.setDt_rand (b : Byte) : (s.setDt b).rand = s.rand := rfl
@[simp] theorem State.setDt_draws (b : Byte) : (s.setDt b).draws = s.draws := rfl
@[simp] theorem State.setDt_out (b : Byte) : (s.setDt b).out = s.out := rfl
@[simp] theorem State.setDt_reg (b : Byte) (k : Reg) : (s.setDt b).reg k = s.reg k := rfl
@[simp] theorem State.setDt_readByte (b : Byte) (k : Nat) : (s.setDt b).readByte k = s.readByte k := rfl
@[simp] theorem State.setDt_cell (b : Byte) (r' : Fin 32) (c' : Fin 64) : (s.setDt b).cell r' c' = s.cell r' c' := rfl
@[simp] theorem State.setDt_indexed (b : Byte) (k : Nat) : (s.setDt b).indexed k = s.indexed k := rfl

/-! ## setSt -/

@[simp] theorem State.setSt_v (b : Byte) : (s.setSt b).v = s.v := rfl
@[simp] theorem State.setSt_i (b : Byte) : (s.setSt b).i = s.i := rfl
@[simp] theorem State.setSt_pc (b : Byte) : (s.setSt b).pc = s.pc := rfl
@[simp] theorem State.setSt_sp (b : Byte) : (s.setSt b).sp = s.sp := rfl
@[simp] theorem State.setSt_stack (b : Byte) : (s.setSt b).stack = s.stack := rfl
@[simp] theorem State.setSt_dt (b : Byte) : (s.setSt b).dt = s.dt := rfl
@[simp] theorem State.setSt_st (b : Byte) : (s.setSt b).st = b := rfl
@[simp] theorem State.setSt_mem (b : Byte) : (s.setSt b).mem = s.mem := rfl
@[simp] theorem State.setSt_fb (b : Byte) : (s.setSt b).fb = s.fb := rfl
@[simp] theorem State.setSt_quirks (b : Byte) : (s.setSt b).quirks = s.quirks := rfl
@[simp] theorem State.setSt_run (b : Byte) : (s.setSt b).run = s.run := rfl
@[simp] theorem State.setSt_build (b : Byte) : (s.setSt b).build = s.build := rfl
@[simp] theorem State.setSt_schedule (b : Byte) : (s.setSt b).schedule = s.schedule := rfl
@[simp] theorem State.setSt_keys (b : Byte) : (s.setSt b).keys = s.keys := rfl
@[simp] theorem State.setSt_rand (b : Byte) : (s.setSt b).rand = s.rand := rfl
@[simp] theorem State.setSt_draws (b : Byte) : (s.setSt b).draws = s.draws := rfl
@[simp] theorem State.setSt_out (b : Byte) : (s.setSt b).out = s.out := rfl
@[simp] theorem State.setSt_reg (b : Byte) (k : Reg) : (s.setSt b).reg k = s.reg k := rfl
@[simp] theorem State.setSt_readByte (b : Byte) (k : Nat) : (s.setSt b).readByte k = s.readByte k := rfl
@[simp] theorem State.setSt_cell (b : Byte) (r' : Fin 32) (c' : Fin 64) : (s.setSt b).cell r' c' = s.cell r' c' := rfl
@[simp] theorem State.setSt_indexed (b : Byte) (k : Nat) : (s.setSt b).indexed k = s.indexed k := rfl

/-! ## setRun -/

@[simp] theorem State.setRun_v (r : RunState) : (s.setRun r).v = s.v := rfl
@[simp] theorem State.setRun_i (r : RunState) : (s.setRun r).i = s.i := rfl
@[simp] theorem State.setRun_pc (r : RunState) : (s.setRun r).pc = s.pc := rfl
@[simp] theorem State.setRun_sp (r : RunState) : (s.setRun r).sp = s.sp := rfl
@[simp] theorem State.setRun_stack (r : RunState) : (s.setRun r).stack = s.stack := rfl
@[simp] theorem State.setRun_dt (r : RunState) : (s.setRun r).dt = s.dt := rfl
@[simp] theorem State.setRun_st (r : RunState) : (s.setRun r).st = s.st := rfl
@[simp] theorem State.setRun_mem (r : RunState) : (s.setRun r).mem = s.mem := rfl
@[simp] theorem State.setRun_fb (r : RunState) : (s.setRun r).fb = s.fb := rfl
@[simp] theorem State.setRun_quirks (r : RunState) : (s.setRun r).quirks = s.quirks := rfl
@[simp] theorem State.setRun_run (r : RunState) : (s.setRun r).run = r := rfl
@[simp] theorem State.setRun_build (r : RunState) : (s.setRun r).build = s.build := rfl
@[simp] theorem State.setRun_schedule (r : RunState) : (s.setRun r).schedule = s.schedule := rfl
@[simp] theorem State.setRun_keys (r : RunState) : (s.setRun r).keys = s.keys := rfl
@[simp] theorem State.setRun_rand (r : RunState) : (s.setRun r).rand = s.rand := rfl
@[simp] theorem State.setRun_draws (r : RunState) : (s.setRun r).draws = s.draws := rfl
@[simp] theorem State.setRun_out (r : RunState) : (s.setRun r).out = s.out := rfl
@[simp] theorem State.setRun_reg (r : RunState) (k : Reg) : (s.setRun r).reg k = s.reg k := rfl
@[simp] theorem State.setRun_readByte (r : RunState) (k : Nat) : (s.setRun r).readByte k = s.readByte k := rfl
@[simp] theorem State.setRun_cell (r : RunState) (r' : Fin 32) (c' : Fin 64) : (s.setRun r).cell r' c' = s.cell r' c' := rfl
@[simp] theorem State.setRun_indexed (r : RunState) (k : Nat) : (s.setRun r).indexed k = s.indexed k := rfl

/-! ## setFb -/

@[simp] theorem State.setFb_v (f : Frame) : (s.setFb f).v = s.v := rfl
@[simp] theorem State.setFb_i (f : Frame) : (s.setFb f).i = s.i := rfl
@[simp] theorem State.setFb_pc (f : Frame) : (s.setFb f).pc = s.pc := rfl
@[simp] theorem State.setFb_sp (f : Frame) : (s.setFb f).sp = s.sp := rfl
@[simp] theorem State.setFb_stack (f : Frame) : (s.setFb f).stack = s.stack := rfl
@[simp] theorem State.setFb_dt (f : Frame) : (s.setFb f).dt = s.dt := rfl
@[simp] theorem State.setFb_st (f : Frame) : (s.setFb f).st = s.st := rfl
@[simp] theorem State.setFb_mem (f : Frame) : (s.setFb f).mem = s.mem := rfl
@[simp] theorem State.setFb_fb (f : Frame) : (s.setFb f).fb = f := rfl
@[simp] theorem State.setFb_quirks (f : Frame) : (s.setFb f).quirks = s.quirks := rfl
@[simp] theorem State.setFb_run (f : Frame) : (s.setFb f).run = s.run := rfl
@[simp] theorem State.setFb_build (f : Frame) : (s.setFb f).build = s.build := rfl
@[simp] theorem State.setFb_schedule (f : Frame) : (s.setFb f).schedule = s.schedule := rfl
@[simp] theorem State.setFb_keys (f : Frame) : (s.setFb f).keys = s.keys := rfl
@[simp] theorem State.setFb_rand (f : Frame) : (s.setFb f).rand = s.rand := rfl
@[simp] theorem State.setFb_draws (f : Frame) : (s.setFb f).draws = s.draws := rfl
@[simp] theorem State.setFb_out (f : Frame) : (s.setFb f).out = s.out := rfl
@[simp] theorem State.setFb_reg (f : Frame) (k : Reg) : (s.setFb f).reg k = s.reg k := rfl
@[simp] theorem State.setFb_readByte (f : Frame) (k : Nat) : (s.setFb f).readByte k = s.readByte k := rfl
@[simp] theorem State.setFb_indexed (f : Frame) (k : Nat) : (s.setFb f).indexed k = s.indexed k := rfl

/-! ## writeByte -/

@[simp] theorem State.writeByte_v (a : Nat) (b : Byte) : (s.writeByte a b).v = s.v := rfl
@[simp] theorem State.writeByte_i (a : Nat) (b : Byte) : (s.writeByte a b).i = s.i := rfl
@[simp] theorem State.writeByte_pc (a : Nat) (b : Byte) : (s.writeByte a b).pc = s.pc := rfl
@[simp] theorem State.writeByte_sp (a : Nat) (b : Byte) : (s.writeByte a b).sp = s.sp := rfl
@[simp] theorem State.writeByte_stack (a : Nat) (b : Byte) : (s.writeByte a b).stack = s.stack := rfl
@[simp] theorem State.writeByte_dt (a : Nat) (b : Byte) : (s.writeByte a b).dt = s.dt := rfl
@[simp] theorem State.writeByte_st (a : Nat) (b : Byte) : (s.writeByte a b).st = s.st := rfl
@[simp] theorem State.writeByte_mem (a : Nat) (b : Byte) : (s.writeByte a b).mem = s.mem.write (a % Config.memorySize) b := rfl
@[simp] theorem State.writeByte_fb (a : Nat) (b : Byte) : (s.writeByte a b).fb = s.fb := rfl
@[simp] theorem State.writeByte_quirks (a : Nat) (b : Byte) : (s.writeByte a b).quirks = s.quirks := rfl
@[simp] theorem State.writeByte_run (a : Nat) (b : Byte) : (s.writeByte a b).run = s.run := rfl
@[simp] theorem State.writeByte_build (a : Nat) (b : Byte) : (s.writeByte a b).build = s.build := rfl
@[simp] theorem State.writeByte_schedule (a : Nat) (b : Byte) : (s.writeByte a b).schedule = s.schedule := rfl
@[simp] theorem State.writeByte_keys (a : Nat) (b : Byte) : (s.writeByte a b).keys = s.keys := rfl
@[simp] theorem State.writeByte_rand (a : Nat) (b : Byte) : (s.writeByte a b).rand = s.rand := rfl
@[simp] theorem State.writeByte_draws (a : Nat) (b : Byte) : (s.writeByte a b).draws = s.draws := rfl
@[simp] theorem State.writeByte_out (a : Nat) (b : Byte) : (s.writeByte a b).out = s.out := rfl
@[simp] theorem State.writeByte_reg (a : Nat) (b : Byte) (k : Reg) : (s.writeByte a b).reg k = s.reg k := rfl
@[simp] theorem State.writeByte_cell (a : Nat) (b : Byte) (r' : Fin 32) (c' : Fin 64) : (s.writeByte a b).cell r' c' = s.cell r' c' := rfl
@[simp] theorem State.writeByte_indexed (a : Nat) (b : Byte) (k : Nat) : (s.writeByte a b).indexed k = s.indexed k := rfl

/-! ## push -/

@[simp] theorem State.push_v (h : s.sp.val < 16) : (s.push h).v = s.v := rfl
@[simp] theorem State.push_i (h : s.sp.val < 16) : (s.push h).i = s.i := rfl
@[simp] theorem State.push_pc (h : s.sp.val < 16) : (s.push h).pc = s.pc := rfl
@[simp] theorem State.push_sp (h : s.sp.val < 16) : (s.push h).sp = ⟨s.sp.val + 1, by omega⟩ := rfl
@[simp] theorem State.push_stack (h : s.sp.val < 16) : (s.push h).stack = s.stack.set s.sp.val s.pc h := rfl
@[simp] theorem State.push_dt (h : s.sp.val < 16) : (s.push h).dt = s.dt := rfl
@[simp] theorem State.push_st (h : s.sp.val < 16) : (s.push h).st = s.st := rfl
@[simp] theorem State.push_mem (h : s.sp.val < 16) : (s.push h).mem = s.mem := rfl
@[simp] theorem State.push_fb (h : s.sp.val < 16) : (s.push h).fb = s.fb := rfl
@[simp] theorem State.push_quirks (h : s.sp.val < 16) : (s.push h).quirks = s.quirks := rfl
@[simp] theorem State.push_run (h : s.sp.val < 16) : (s.push h).run = s.run := rfl
@[simp] theorem State.push_build (h : s.sp.val < 16) : (s.push h).build = s.build := rfl
@[simp] theorem State.push_schedule (h : s.sp.val < 16) : (s.push h).schedule = s.schedule := rfl
@[simp] theorem State.push_keys (h : s.sp.val < 16) : (s.push h).keys = s.keys := rfl
@[simp] theorem State.push_rand (h : s.sp.val < 16) : (s.push h).rand = s.rand := rfl
@[simp] theorem State.push_draws (h : s.sp.val < 16) : (s.push h).draws = s.draws := rfl
@[simp] theorem State.push_out (h : s.sp.val < 16) : (s.push h).out = s.out := rfl
@[simp] theorem State.push_reg (h : s.sp.val < 16) (k : Reg) : (s.push h).reg k = s.reg k := rfl
@[simp] theorem State.push_readByte (h : s.sp.val < 16) (k : Nat) : (s.push h).readByte k = s.readByte k := rfl
@[simp] theorem State.push_cell (h : s.sp.val < 16) (r' : Fin 32) (c' : Fin 64) : (s.push h).cell r' c' = s.cell r' c' := rfl
@[simp] theorem State.push_indexed (h : s.sp.val < 16) (k : Nat) : (s.push h).indexed k = s.indexed k := rfl

/-! ## pop -/

@[simp] theorem State.pop_v (h : s.sp.val ≠ 0) : (s.pop h).v = s.v := rfl
@[simp] theorem State.pop_i (h : s.sp.val ≠ 0) : (s.pop h).i = s.i := rfl
@[simp] theorem State.pop_pc (h : s.sp.val ≠ 0) : (s.pop h).pc = s.top h := rfl
@[simp] theorem State.pop_sp (h : s.sp.val ≠ 0) : (s.pop h).sp = ⟨s.sp.val - 1, by omega⟩ := rfl
@[simp] theorem State.pop_stack (h : s.sp.val ≠ 0) : (s.pop h).stack = s.stack := rfl
@[simp] theorem State.pop_dt (h : s.sp.val ≠ 0) : (s.pop h).dt = s.dt := rfl
@[simp] theorem State.pop_st (h : s.sp.val ≠ 0) : (s.pop h).st = s.st := rfl
@[simp] theorem State.pop_mem (h : s.sp.val ≠ 0) : (s.pop h).mem = s.mem := rfl
@[simp] theorem State.pop_fb (h : s.sp.val ≠ 0) : (s.pop h).fb = s.fb := rfl
@[simp] theorem State.pop_quirks (h : s.sp.val ≠ 0) : (s.pop h).quirks = s.quirks := rfl
@[simp] theorem State.pop_run (h : s.sp.val ≠ 0) : (s.pop h).run = s.run := rfl
@[simp] theorem State.pop_build (h : s.sp.val ≠ 0) : (s.pop h).build = s.build := rfl
@[simp] theorem State.pop_schedule (h : s.sp.val ≠ 0) : (s.pop h).schedule = s.schedule := rfl
@[simp] theorem State.pop_keys (h : s.sp.val ≠ 0) : (s.pop h).keys = s.keys := rfl
@[simp] theorem State.pop_rand (h : s.sp.val ≠ 0) : (s.pop h).rand = s.rand := rfl
@[simp] theorem State.pop_draws (h : s.sp.val ≠ 0) : (s.pop h).draws = s.draws := rfl
@[simp] theorem State.pop_out (h : s.sp.val ≠ 0) : (s.pop h).out = s.out := rfl
@[simp] theorem State.pop_reg (h : s.sp.val ≠ 0) (k : Reg) : (s.pop h).reg k = s.reg k := rfl
@[simp] theorem State.pop_readByte (h : s.sp.val ≠ 0) (k : Nat) : (s.pop h).readByte k = s.readByte k := rfl
@[simp] theorem State.pop_cell (h : s.sp.val ≠ 0) (r' : Fin 32) (c' : Fin 64) : (s.pop h).cell r' c' = s.cell r' c' := rfl
@[simp] theorem State.pop_indexed (h : s.sp.val ≠ 0) (k : Nat) : (s.pop h).indexed k = s.indexed k := rfl

/-! ## emit -/

@[simp] theorem State.emit_v (r : DisplayRequest) : (s.emit r).v = s.v := rfl
@[simp] theorem State.emit_i (r : DisplayRequest) : (s.emit r).i = s.i := rfl
@[simp] theorem State.emit_pc (r : DisplayRequest) : (s.emit r).pc = s.pc := rfl
@[simp] theorem State.emit_sp (r : DisplayRequest) : (s.emit r).sp = s.sp := rfl
@[simp] theorem State.emit_stack (r : DisplayRequest) : (s.emit r).stack = s.stack := rfl
@[simp] theorem State.emit_dt (r : DisplayRequest) : (s.emit r).dt = s.dt := rfl
@[simp] theorem State.emit_st (r : DisplayRequest) : (s.emit r).st = s.st := rfl
@[simp] theorem State.emit_mem (r : DisplayRequest) : (s.emit r).mem = s.mem := rfl
@[simp] theorem State.emit_fb (r : DisplayRequest) : (s.emit r).fb = s.fb := rfl
@[simp] theorem State.emit_quirks (r : DisplayRequest) : (s.emit r).quirks = s.quirks := rfl
@[simp] theorem State.emit_run (r : DisplayRequest) : (s.emit r).run = s.run := rfl
@[simp] theorem State.emit_build (r : DisplayRequest) : (s.emit r).build = s.build := rfl
@[simp] theorem State.emit_schedule (r : DisplayRequest) : (s.emit r).schedule = s.schedule := rfl
@[simp] theorem State.emit_keys (r : DisplayRequest) : (s.emit r).keys = s.keys := rfl
@[simp] theorem State.emit_rand (r : DisplayRequest) : (s.emit r).rand = s.rand := rfl
@[simp] theorem State.emit_draws (r : DisplayRequest) : (s.emit r).draws = s.draws := rfl
@[simp] theorem State.emit_out (r : DisplayRequest) : (s.emit r).out = s.out ++ [r] := rfl
@[simp] theorem State.emit_reg (r : DisplayRequest) (k : Reg) : (s.emit r).reg k = s.reg k := rfl
@[simp] theorem State.emit_readByte (r : DisplayRequest) (k : Nat) : (s.emit r).readByte k = s.readByte k := rfl
@[simp] theorem State.emit_cell (r : DisplayRequest) (r' : Fin 32) (c' : Fin 64) : (s.emit r).cell r' c' = s.cell r' c' := rfl
@[simp] theorem State.emit_indexed (r : DisplayRequest) (k : Nat) : (s.emit r).indexed k = s.indexed k := rfl

/-! ## drawRandom -/

@[simp] theorem State.drawRandom_v : s.drawRandom.v = s.v := rfl
@[simp] theorem State.drawRandom_i : s.drawRandom.i = s.i := rfl
@[simp] theorem State.drawRandom_pc : s.drawRandom.pc = s.pc := rfl
@[simp] theorem State.drawRandom_sp : s.drawRandom.sp = s.sp := rfl
@[simp] theorem State.drawRandom_stack : s.drawRandom.stack = s.stack := rfl
@[simp] theorem State.drawRandom_dt : s.drawRandom.dt = s.dt := rfl
@[simp] theorem State.drawRandom_st : s.drawRandom.st = s.st := rfl
@[simp] theorem State.drawRandom_mem : s.drawRandom.mem = s.mem := rfl
@[simp] theorem State.drawRandom_fb : s.drawRandom.fb = s.fb := rfl
@[simp] theorem State.drawRandom_quirks : s.drawRandom.quirks = s.quirks := rfl
@[simp] theorem State.drawRandom_run : s.drawRandom.run = s.run := rfl
@[simp] theorem State.drawRandom_build : s.drawRandom.build = s.build := rfl
@[simp] theorem State.drawRandom_schedule : s.drawRandom.schedule = s.schedule := rfl
@[simp] theorem State.drawRandom_keys : s.drawRandom.keys = s.keys := rfl
@[simp] theorem State.drawRandom_rand : s.drawRandom.rand = s.rand.tail := rfl
@[simp] theorem State.drawRandom_draws : s.drawRandom.draws = s.draws + 1 := rfl
@[simp] theorem State.drawRandom_out : s.drawRandom.out = s.out := rfl
@[simp] theorem State.drawRandom_reg (k : Reg) : s.drawRandom.reg k = s.reg k := rfl
@[simp] theorem State.drawRandom_readByte (k : Nat) : s.drawRandom.readByte k = s.readByte k := rfl
@[simp] theorem State.drawRandom_cell (r' : Fin 32) (c' : Fin 64) : s.drawRandom.cell r' c' = s.cell r' c' := rfl
@[simp] theorem State.drawRandom_indexed (k : Nat) : s.drawRandom.indexed k = s.indexed k := rfl

/-! ## advancePc -/

@[simp] theorem State.advancePc_v : s.advancePc.v = s.v := rfl
@[simp] theorem State.advancePc_i : s.advancePc.i = s.i := rfl
@[simp] theorem State.advancePc_pc : s.advancePc.pc = s.pc + 2 := rfl
@[simp] theorem State.advancePc_sp : s.advancePc.sp = s.sp := rfl
@[simp] theorem State.advancePc_stack : s.advancePc.stack = s.stack := rfl
@[simp] theorem State.advancePc_dt : s.advancePc.dt = s.dt := rfl
@[simp] theorem State.advancePc_st : s.advancePc.st = s.st := rfl
@[simp] theorem State.advancePc_mem : s.advancePc.mem = s.mem := rfl
@[simp] theorem State.advancePc_fb : s.advancePc.fb = s.fb := rfl
@[simp] theorem State.advancePc_quirks : s.advancePc.quirks = s.quirks := rfl
@[simp] theorem State.advancePc_run : s.advancePc.run = s.run := rfl
@[simp] theorem State.advancePc_build : s.advancePc.build = s.build := rfl
@[simp] theorem State.advancePc_schedule : s.advancePc.schedule = s.schedule := rfl
@[simp] theorem State.advancePc_keys : s.advancePc.keys = s.keys := rfl
@[simp] theorem State.advancePc_rand : s.advancePc.rand = s.rand := rfl
@[simp] theorem State.advancePc_draws : s.advancePc.draws = s.draws := rfl
@[simp] theorem State.advancePc_out : s.advancePc.out = s.out := rfl
@[simp] theorem State.advancePc_reg (k : Reg) : s.advancePc.reg k = s.reg k := rfl
@[simp] theorem State.advancePc_readByte (k : Nat) : s.advancePc.readByte k = s.readByte k := rfl
@[simp] theorem State.advancePc_cell (r' : Fin 32) (c' : Fin 64) : s.advancePc.cell r' c' = s.cell r' c' := rfl
@[simp] theorem State.advancePc_indexed (k : Nat) : s.advancePc.indexed k = s.indexed k := rfl

/-! ## raiseFault -/

@[simp] theorem State.raiseFault_v (c : FaultCode) (w : Word) : (s.raiseFault c w).v = s.v := rfl
@[simp] theorem State.raiseFault_i (c : FaultCode) (w : Word) : (s.raiseFault c w).i = s.i := rfl
@[simp] theorem State.raiseFault_pc (c : FaultCode) (w : Word) : (s.raiseFault c w).pc = s.pc := rfl
@[simp] theorem State.raiseFault_sp (c : FaultCode) (w : Word) : (s.raiseFault c w).sp = s.sp := rfl
@[simp] theorem State.raiseFault_stack (c : FaultCode) (w : Word) : (s.raiseFault c w).stack = s.stack := rfl
@[simp] theorem State.raiseFault_dt (c : FaultCode) (w : Word) : (s.raiseFault c w).dt = s.dt := rfl
@[simp] theorem State.raiseFault_st (c : FaultCode) (w : Word) : (s.raiseFault c w).st = s.st := rfl
@[simp] theorem State.raiseFault_mem (c : FaultCode) (w : Word) : (s.raiseFault c w).mem = s.mem := rfl
@[simp] theorem State.raiseFault_fb (c : FaultCode) (w : Word) : (s.raiseFault c w).fb = s.fb := rfl
@[simp] theorem State.raiseFault_quirks (c : FaultCode) (w : Word) : (s.raiseFault c w).quirks = s.quirks := rfl
@[simp] theorem State.raiseFault_run (c : FaultCode) (w : Word) : (s.raiseFault c w).run = .halted c (s.pc - 2) w := rfl
@[simp] theorem State.raiseFault_build (c : FaultCode) (w : Word) : (s.raiseFault c w).build = s.build := rfl
@[simp] theorem State.raiseFault_schedule (c : FaultCode) (w : Word) : (s.raiseFault c w).schedule = s.schedule := rfl
@[simp] theorem State.raiseFault_keys (c : FaultCode) (w : Word) : (s.raiseFault c w).keys = s.keys := rfl
@[simp] theorem State.raiseFault_rand (c : FaultCode) (w : Word) : (s.raiseFault c w).rand = s.rand := rfl
@[simp] theorem State.raiseFault_draws (c : FaultCode) (w : Word) : (s.raiseFault c w).draws = s.draws := rfl
@[simp] theorem State.raiseFault_out (c : FaultCode) (w : Word) : (s.raiseFault c w).out = s.out := rfl
@[simp] theorem State.raiseFault_reg (c : FaultCode) (w : Word) (k : Reg) : (s.raiseFault c w).reg k = s.reg k := rfl
@[simp] theorem State.raiseFault_readByte (c : FaultCode) (w : Word) (k : Nat) : (s.raiseFault c w).readByte k = s.readByte k := rfl
@[simp] theorem State.raiseFault_cell (c : FaultCode) (w : Word) (r' : Fin 32) (c' : Fin 64) : (s.raiseFault c w).cell r' c' = s.cell r' c' := rfl
@[simp] theorem State.raiseFault_indexed (c : FaultCode) (w : Word) (k : Nat) : (s.raiseFault c w).indexed k = s.indexed k := rfl

/-! ## takeTransaction -/

@[simp] theorem State.takeTransaction_v : s.takeTransaction.v = s.v := rfl
@[simp] theorem State.takeTransaction_i : s.takeTransaction.i = s.i := rfl
@[simp] theorem State.takeTransaction_pc : s.takeTransaction.pc = s.pc := rfl
@[simp] theorem State.takeTransaction_sp : s.takeTransaction.sp = s.sp := rfl
@[simp] theorem State.takeTransaction_stack : s.takeTransaction.stack = s.stack := rfl
@[simp] theorem State.takeTransaction_dt : s.takeTransaction.dt = s.dt := rfl
@[simp] theorem State.takeTransaction_st : s.takeTransaction.st = s.st := rfl
@[simp] theorem State.takeTransaction_mem : s.takeTransaction.mem = s.mem := rfl
@[simp] theorem State.takeTransaction_fb : s.takeTransaction.fb = s.fb := rfl
@[simp] theorem State.takeTransaction_quirks : s.takeTransaction.quirks = s.quirks := rfl
@[simp] theorem State.takeTransaction_run : s.takeTransaction.run = s.run := rfl
@[simp] theorem State.takeTransaction_build : s.takeTransaction.build = s.build := rfl
@[simp] theorem State.takeTransaction_schedule : s.takeTransaction.schedule = s.schedule.tail := rfl
@[simp] theorem State.takeTransaction_keys : s.takeTransaction.keys = s.keys := rfl
@[simp] theorem State.takeTransaction_rand : s.takeTransaction.rand = s.rand := rfl
@[simp] theorem State.takeTransaction_draws : s.takeTransaction.draws = s.draws := rfl
@[simp] theorem State.takeTransaction_out : s.takeTransaction.out = s.out := rfl
@[simp] theorem State.takeTransaction_reg (k : Reg) : s.takeTransaction.reg k = s.reg k := rfl
@[simp] theorem State.takeTransaction_readByte (k : Nat) : s.takeTransaction.readByte k = s.readByte k := rfl
@[simp] theorem State.takeTransaction_cell (r' : Fin 32) (c' : Fin 64) : s.takeTransaction.cell r' c' = s.cell r' c' := rfl
@[simp] theorem State.takeTransaction_indexed (k : Nat) : s.takeTransaction.indexed k = s.indexed k := rfl

/-! ## skipIf -/

@[simp] theorem State.skipIf_v (c : Bool) : (s.skipIf c).v = s.v := by cases c <;> rfl
@[simp] theorem State.skipIf_i (c : Bool) : (s.skipIf c).i = s.i := by cases c <;> rfl
@[simp] theorem State.skipIf_pc (c : Bool) : (s.skipIf c).pc = if c then s.pc + 2 else s.pc := by cases c <;> rfl
@[simp] theorem State.skipIf_sp (c : Bool) : (s.skipIf c).sp = s.sp := by cases c <;> rfl
@[simp] theorem State.skipIf_stack (c : Bool) : (s.skipIf c).stack = s.stack := by cases c <;> rfl
@[simp] theorem State.skipIf_dt (c : Bool) : (s.skipIf c).dt = s.dt := by cases c <;> rfl
@[simp] theorem State.skipIf_st (c : Bool) : (s.skipIf c).st = s.st := by cases c <;> rfl
@[simp] theorem State.skipIf_mem (c : Bool) : (s.skipIf c).mem = s.mem := by cases c <;> rfl
@[simp] theorem State.skipIf_fb (c : Bool) : (s.skipIf c).fb = s.fb := by cases c <;> rfl
@[simp] theorem State.skipIf_quirks (c : Bool) : (s.skipIf c).quirks = s.quirks := by cases c <;> rfl
@[simp] theorem State.skipIf_run (c : Bool) : (s.skipIf c).run = s.run := by cases c <;> rfl
@[simp] theorem State.skipIf_build (c : Bool) : (s.skipIf c).build = s.build := by cases c <;> rfl
@[simp] theorem State.skipIf_schedule (c : Bool) : (s.skipIf c).schedule = s.schedule := by cases c <;> rfl
@[simp] theorem State.skipIf_keys (c : Bool) : (s.skipIf c).keys = s.keys := by cases c <;> rfl
@[simp] theorem State.skipIf_rand (c : Bool) : (s.skipIf c).rand = s.rand := by cases c <;> rfl
@[simp] theorem State.skipIf_draws (c : Bool) : (s.skipIf c).draws = s.draws := by cases c <;> rfl
@[simp] theorem State.skipIf_out (c : Bool) : (s.skipIf c).out = s.out := by cases c <;> rfl
@[simp] theorem State.skipIf_reg (c : Bool) (k : Reg) : (s.skipIf c).reg k = s.reg k := by cases c <;> rfl
@[simp] theorem State.skipIf_readByte (c : Bool) (k : Nat) : (s.skipIf c).readByte k = s.readByte k := by cases c <;> rfl
@[simp] theorem State.skipIf_cell (c : Bool) (r' : Fin 32) (c' : Fin 64) : (s.skipIf c).cell r' c' = s.cell r' c' := by cases c <;> rfl
@[simp] theorem State.skipIf_indexed (c : Bool) (k : Nat) : (s.skipIf c).indexed k = s.indexed k := by cases c <;> rfl

/-! ## setRegFlag -/

@[simp] theorem State.setRegFlag_i (x : Reg) (b : Byte) (f : Bool) : (s.setRegFlag x b f).i = s.i := by unfold State.setRegFlag; split <;> rfl
@[simp] theorem State.setRegFlag_pc (x : Reg) (b : Byte) (f : Bool) : (s.setRegFlag x b f).pc = s.pc := by unfold State.setRegFlag; split <;> rfl
@[simp] theorem State.setRegFlag_sp (x : Reg) (b : Byte) (f : Bool) : (s.setRegFlag x b f).sp = s.sp := by unfold State.setRegFlag; split <;> rfl
@[simp] theorem State.setRegFlag_stack (x : Reg) (b : Byte) (f : Bool) : (s.setRegFlag x b f).stack = s.stack := by unfold State.setRegFlag; split <;> rfl
@[simp] theorem State.setRegFlag_dt (x : Reg) (b : Byte) (f : Bool) : (s.setRegFlag x b f).dt = s.dt := by unfold State.setRegFlag; split <;> rfl
@[simp] theorem State.setRegFlag_st (x : Reg) (b : Byte) (f : Bool) : (s.setRegFlag x b f).st = s.st := by unfold State.setRegFlag; split <;> rfl
@[simp] theorem State.setRegFlag_mem (x : Reg) (b : Byte) (f : Bool) : (s.setRegFlag x b f).mem = s.mem := by unfold State.setRegFlag; split <;> rfl
@[simp] theorem State.setRegFlag_fb (x : Reg) (b : Byte) (f : Bool) : (s.setRegFlag x b f).fb = s.fb := by unfold State.setRegFlag; split <;> rfl
@[simp] theorem State.setRegFlag_quirks (x : Reg) (b : Byte) (f : Bool) : (s.setRegFlag x b f).quirks = s.quirks := by unfold State.setRegFlag; split <;> rfl
@[simp] theorem State.setRegFlag_run (x : Reg) (b : Byte) (f : Bool) : (s.setRegFlag x b f).run = s.run := by unfold State.setRegFlag; split <;> rfl
@[simp] theorem State.setRegFlag_build (x : Reg) (b : Byte) (f : Bool) : (s.setRegFlag x b f).build = s.build := by unfold State.setRegFlag; split <;> rfl
@[simp] theorem State.setRegFlag_schedule (x : Reg) (b : Byte) (f : Bool) : (s.setRegFlag x b f).schedule = s.schedule := by unfold State.setRegFlag; split <;> rfl
@[simp] theorem State.setRegFlag_keys (x : Reg) (b : Byte) (f : Bool) : (s.setRegFlag x b f).keys = s.keys := by unfold State.setRegFlag; split <;> rfl
@[simp] theorem State.setRegFlag_rand (x : Reg) (b : Byte) (f : Bool) : (s.setRegFlag x b f).rand = s.rand := by unfold State.setRegFlag; split <;> rfl
@[simp] theorem State.setRegFlag_draws (x : Reg) (b : Byte) (f : Bool) : (s.setRegFlag x b f).draws = s.draws := by unfold State.setRegFlag; split <;> rfl
@[simp] theorem State.setRegFlag_out (x : Reg) (b : Byte) (f : Bool) : (s.setRegFlag x b f).out = s.out := by unfold State.setRegFlag; split <;> rfl
@[simp] theorem State.setRegFlag_readByte (x : Reg) (b : Byte) (f : Bool) (k : Nat) : (s.setRegFlag x b f).readByte k = s.readByte k := by unfold State.setRegFlag; split <;> rfl
@[simp] theorem State.setRegFlag_cell (x : Reg) (b : Byte) (f : Bool) (r' : Fin 32) (c' : Fin 64) : (s.setRegFlag x b f).cell r' c' = s.cell r' c' := by unfold State.setRegFlag; split <;> rfl
@[simp] theorem State.setRegFlag_indexed (x : Reg) (b : Byte) (f : Bool) (k : Nat) : (s.setRegFlag x b f).indexed k = s.indexed k := by unfold State.setRegFlag; split <;> rfl

/-! ## bumpI -/

@[simp] theorem State.bumpI_v (x : Reg) : (s.bumpI x).v = s.v := by unfold State.bumpI; split <;> rfl
@[simp] theorem State.bumpI_i (x : Reg) : (s.bumpI x).i = if s.quirks.incrementI then BitVec.ofNat 16 (s.i.toNat + x.val + 1) else s.i := by unfold State.bumpI; split <;> rfl
@[simp] theorem State.bumpI_pc (x : Reg) : (s.bumpI x).pc = s.pc := by unfold State.bumpI; split <;> rfl
@[simp] theorem State.bumpI_sp (x : Reg) : (s.bumpI x).sp = s.sp := by unfold State.bumpI; split <;> rfl
@[simp] theorem State.bumpI_stack (x : Reg) : (s.bumpI x).stack = s.stack := by unfold State.bumpI; split <;> rfl
@[simp] theorem State.bumpI_dt (x : Reg) : (s.bumpI x).dt = s.dt := by unfold State.bumpI; split <;> rfl
@[simp] theorem State.bumpI_st (x : Reg) : (s.bumpI x).st = s.st := by unfold State.bumpI; split <;> rfl
@[simp] theorem State.bumpI_mem (x : Reg) : (s.bumpI x).mem = s.mem := by unfold State.bumpI; split <;> rfl
@[simp] theorem State.bumpI_fb (x : Reg) : (s.bumpI x).fb = s.fb := by unfold State.bumpI; split <;> rfl
@[simp] theorem State.bumpI_quirks (x : Reg) : (s.bumpI x).quirks = s.quirks := by unfold State.bumpI; split <;> rfl
@[simp] theorem State.bumpI_run (x : Reg) : (s.bumpI x).run = s.run := by unfold State.bumpI; split <;> rfl
@[simp] theorem State.bumpI_build (x : Reg) : (s.bumpI x).build = s.build := by unfold State.bumpI; split <;> rfl
@[simp] theorem State.bumpI_schedule (x : Reg) : (s.bumpI x).schedule = s.schedule := by unfold State.bumpI; split <;> rfl
@[simp] theorem State.bumpI_keys (x : Reg) : (s.bumpI x).keys = s.keys := by unfold State.bumpI; split <;> rfl
@[simp] theorem State.bumpI_rand (x : Reg) : (s.bumpI x).rand = s.rand := by unfold State.bumpI; split <;> rfl
@[simp] theorem State.bumpI_draws (x : Reg) : (s.bumpI x).draws = s.draws := by unfold State.bumpI; split <;> rfl
@[simp] theorem State.bumpI_out (x : Reg) : (s.bumpI x).out = s.out := by unfold State.bumpI; split <;> rfl
@[simp] theorem State.bumpI_reg (x : Reg) (k : Reg) : (s.bumpI x).reg k = s.reg k := by unfold State.bumpI; split <;> rfl
@[simp] theorem State.bumpI_readByte (x : Reg) (k : Nat) : (s.bumpI x).readByte k = s.readByte k := by unfold State.bumpI; split <;> rfl
@[simp] theorem State.bumpI_cell (x : Reg) (r' : Fin 32) (c' : Fin 64) : (s.bumpI x).cell r' c' = s.cell r' c' := by unfold State.bumpI; split <;> rfl

end Sys2Proof.Machine
end

