-- ==== Sys2Proof/Laws/Ops.lean ====
section
/-! SUPPORT. One law per shared operation: what a register or memory write makes readable, what the register ranges of
FX55 and FX65 do, and what the flag-writing form does. -/

namespace Sys2Proof.Machine

variable (s : State)

@[simp] theorem State.setReg_reg (x k : Reg) (b : Byte) : (s.setReg x b).reg k = if k = x then b else s.reg k := by
  simp only [State.setReg, State.reg, Fin.getElem_fin, Vector.getElem_set, Fin.ext_iff, eq_comm]

@[simp] theorem State.writeByte_readByte (a k : Nat) (b : Byte) :
    (s.writeByte a b).readByte k = if k % 4096 = a % 4096 then b else s.readByte k := by
  simp only [State.writeByte, State.readByte, Memory.read_write]

theorem State.readByte_mod (a : Nat) : s.readByte (a % 4096) = s.readByte a := by
  simp only [State.readByte, Config.memorySize, Nat.mod_mod]

@[simp] theorem State.setFb_cell (f : Frame) (r : Fin 32) (c : Fin 64) : (s.setFb f).cell r c = f[r][c] := rfl

theorem State.fetchWord_toNat :
    s.fetchWord.toNat = (s.readByte s.pc.toNat).toNat * 256 + (s.readByte (s.pc.toNat + 1)).toNat :=
  wordOfBytes_toNat _ _

/-! ## The flag-writing form (43_alu.md R74) -/

theorem State.setRegFlag_reg (x k : Reg) (b : Byte) (f : Bool) :
    (s.setRegFlag x b f).reg k =
      if s.build.vfResultLast then (if k = x then b else if k = VF then flagByte f else s.reg k)
      else (if k = VF then flagByte f else if k = x then b else s.reg k) := by
  unfold State.setRegFlag; split <;> simp only [State.setReg_reg]

theorem State.setRegFlag_only_v (x : Reg) (b : Byte) (f : Bool) :
    s.setRegFlag x b f = { s with v := (s.setRegFlag x b f).v } := by
  unfold State.setRegFlag; split <;> rfl

/-! ## Ranges of registers in memory (44_index_memory.md R91, R92) -/

theorem storeFirst_only_mem (n : Nat) : storeFirst n s = { s with mem := (storeFirst n s).mem } := by
  induction n with
  | zero => rfl
  | succ n ih => rw [storeFirst, ih]; rfl

theorem storeFirst_readByte (n : Nat) (hn : n ≤ 16) (a : Nat) :
    (storeFirst n s).readByte a =
      if (a + 4096 - s.i.toNat % 4096) % 4096 < n then s.reg (Fin.ofNat 16 ((a + 4096 - s.i.toNat % 4096) % 4096))
      else s.readByte a := by
  induction n with
  | zero => simp [storeFirst]
  | succ n ih =>
    have hs := storeFirst_only_mem s n
    have hr : (storeFirst n s).reg (Fin.ofNat 16 n) = s.reg (Fin.ofNat 16 n) := by rw [hs]; rfl
    have hx : (storeFirst n s).indexed n = s.i.toNat + n := by rw [hs]; rfl
    simp only [storeFirst, State.writeByte_readByte, hr, hx, ih (by omega)]
    by_cases h : a % 4096 = (s.i.toNat + n) % 4096
    · have e : (a + 4096 - s.i.toNat % 4096) % 4096 = n := by omega
      simp [h, e]
    · have e : (a + 4096 - s.i.toNat % 4096) % 4096 ≠ n := by omega
      have e2 : ((a + 4096 - s.i.toNat % 4096) % 4096 < n + 1) ↔ ((a + 4096 - s.i.toNat % 4096) % 4096 < n) := by omega
      simp only [h, e2, if_false]

theorem loadFirst_only_v (n : Nat) : loadFirst n s = { s with v := (loadFirst n s).v } := by
  induction n with
  | zero => rfl
  | succ n ih => rw [loadFirst, ih]; rfl

theorem loadFirst_reg (n : Nat) (hn : n ≤ 16) (k : Reg) :
    (loadFirst n s).reg k = if k.val < n then s.readByte (s.i.toNat + k.val) else s.reg k := by
  induction n with
  | zero => simp [loadFirst]
  | succ n ih =>
    have hs := loadFirst_only_v s n
    have hr : (loadFirst n s).readByte ((loadFirst n s).indexed n) = s.readByte (s.i.toNat + n) := by rw [hs]; rfl
    simp only [loadFirst, State.setReg_reg, hr, ih (by omega)]
    by_cases h : k = Fin.ofNat 16 n
    · have e : k.val = n := by rw [h]; simp [Fin.ofNat]; omega
      rw [if_pos h, if_pos (by omega), e]
    · have e : k.val ≠ n := fun e => h (by rw [← e]; simp)
      have e2 : k.val < n + 1 ↔ k.val < n := by omega
      simp only [h, e2, if_false]

end Sys2Proof.Machine
end

