-- ==== Sys2Proof/Laws/PerInstr.lean ====
section
/-! SUPPORT. Statements made for every instruction, one lemma per constructor. -/

namespace Sys2Proof.Laws

/-- The encoded instruction selects its own row of the opcode map (30_encoding.md R49). -/
def OpcodeMap.Statement (i : Instr) : Prop := (rowOf i).selects (encode i) = true

namespace OpcodeMap

theorem cls : Statement .cls := by unfold Statement; decide

theorem ret : Statement .ret := by unfold Statement; decide

theorem jp (nnn : Addr) : Statement (.jp nnn) := by simp [Statement, OpcodeRow.selects, rowOf, encode, and_maskF000]

theorem call (nnn : Addr) : Statement (.call nnn) := by simp [Statement, OpcodeRow.selects, rowOf, encode, and_maskF000]

theorem seByte (x : Reg) (nn : Byte) : Statement (.seByte x nn) := by simp [Statement, OpcodeRow.selects, rowOf, encode, and_maskF000]

theorem sneByte (x : Reg) (nn : Byte) : Statement (.sneByte x nn) := by simp [Statement, OpcodeRow.selects, rowOf, encode, and_maskF000]

theorem seReg (x y : Reg) : Statement (.seReg x y) := by simp [Statement, OpcodeRow.selects, rowOf, encode, and_maskF00F]

theorem ldByte (x : Reg) (nn : Byte) : Statement (.ldByte x nn) := by simp [Statement, OpcodeRow.selects, rowOf, encode, and_maskF000]

theorem addByte (x : Reg) (nn : Byte) : Statement (.addByte x nn) := by simp [Statement, OpcodeRow.selects, rowOf, encode, and_maskF000]

theorem ldReg (x y : Reg) : Statement (.ldReg x y) := by simp [Statement, OpcodeRow.selects, rowOf, encode, and_maskF00F]

theorem orReg (x y : Reg) : Statement (.orReg x y) := by simp [Statement, OpcodeRow.selects, rowOf, encode, and_maskF00F]

theorem andReg (x y : Reg) : Statement (.andReg x y) := by simp [Statement, OpcodeRow.selects, rowOf, encode, and_maskF00F]

theorem xorReg (x y : Reg) : Statement (.xorReg x y) := by simp [Statement, OpcodeRow.selects, rowOf, encode, and_maskF00F]

theorem addReg (x y : Reg) : Statement (.addReg x y) := by simp [Statement, OpcodeRow.selects, rowOf, encode, and_maskF00F]

theorem subReg (x y : Reg) : Statement (.subReg x y) := by simp [Statement, OpcodeRow.selects, rowOf, encode, and_maskF00F]

theorem shr (x y : Reg) : Statement (.shr x y) := by simp [Statement, OpcodeRow.selects, rowOf, encode, and_maskF00F]

theorem subn (x y : Reg) : Statement (.subn x y) := by simp [Statement, OpcodeRow.selects, rowOf, encode, and_maskF00F]

theorem shl (x y : Reg) : Statement (.shl x y) := by simp [Statement, OpcodeRow.selects, rowOf, encode, and_maskF00F]

theorem sneReg (x y : Reg) : Statement (.sneReg x y) := by simp [Statement, OpcodeRow.selects, rowOf, encode, and_maskF00F]

theorem ldI (nnn : Addr) : Statement (.ldI nnn) := by simp [Statement, OpcodeRow.selects, rowOf, encode, and_maskF000]

theorem jpV0 (x : Reg) (nnn : Addr) : Statement (.jpV0 x nnn) := by simp [Statement, OpcodeRow.selects, rowOf, encode, and_maskF000]

theorem rnd (x : Reg) (nn : Byte) : Statement (.rnd x nn) := by simp [Statement, OpcodeRow.selects, rowOf, encode, and_maskF000]

theorem drw (x y : Reg) (n : BitVec 4) : Statement (.drw x y n) := by simp [Statement, OpcodeRow.selects, rowOf, encode, and_maskF000]

theorem skp (x : Reg) : Statement (.skp x) := by simp [Statement, OpcodeRow.selects, rowOf, encode, and_maskF0FF]

theorem sknp (x : Reg) : Statement (.sknp x) := by simp [Statement, OpcodeRow.selects, rowOf, encode, and_maskF0FF]

theorem ldVxDT (x : Reg) : Statement (.ldVxDT x) := by simp [Statement, OpcodeRow.selects, rowOf, encode, and_maskF0FF]

theorem ldVxK (x : Reg) : Statement (.ldVxK x) := by simp [Statement, OpcodeRow.selects, rowOf, encode, and_maskF0FF]

theorem ldDTVx (x : Reg) : Statement (.ldDTVx x) := by simp [Statement, OpcodeRow.selects, rowOf, encode, and_maskF0FF]

theorem ldSTVx (x : Reg) : Statement (.ldSTVx x) := by simp [Statement, OpcodeRow.selects, rowOf, encode, and_maskF0FF]

theorem addI (x : Reg) : Statement (.addI x) := by simp [Statement, OpcodeRow.selects, rowOf, encode, and_maskF0FF]

theorem ldF (x : Reg) : Statement (.ldF x) := by simp [Statement, OpcodeRow.selects, rowOf, encode, and_maskF0FF]

theorem ldB (x : Reg) : Statement (.ldB x) := by simp [Statement, OpcodeRow.selects, rowOf, encode, and_maskF0FF]

theorem storeRegs (x : Reg) : Statement (.storeRegs x) := by simp [Statement, OpcodeRow.selects, rowOf, encode, and_maskF0FF]

theorem loadRegs (x : Reg) : Statement (.loadRegs x) := by simp [Statement, OpcodeRow.selects, rowOf, encode, and_maskF0FF]

end OpcodeMap

end Sys2Proof.Laws
end

