-- ==== Sys2Proof/Laws/Step.lean ====
section
/-! SUPPORT. What each transaction does in each run state, said once, and what a step can be (40_cycle.md R53 to R56;
60_exceptions.md R110, R112). -/

namespace Sys2Proof.Machine

variable (s : State)

/-! ## The transactions by run state -/

theorem engineStep_running (h : s.run = .running) : engineStep s = runInstruction s := by
  unfold engineStep; split <;> simp_all

theorem engineStep_awaitKey (r : Reg) (h : s.run = .awaitKey r) : engineStep s = .next s := by
  unfold engineStep; split <;> simp_all

theorem engineStep_halted (h : Halted s) : engineStep s = .next s := by
  obtain ⟨c, p, w, h⟩ := h
  unfold engineStep; split <;> simp_all

/-- A block that is not halted runs or waits. -/
theorem running_or_awaiting (h : ¬ Halted s) : s.run = .running ∨ ∃ r, s.run = .awaitKey r := by
  cases hr : s.run with
  | running => exact .inl rfl
  | awaitKey r => exact .inr ⟨r, rfl⟩
  | halted c p w => exact absurd ⟨c, p, w, hr⟩ h

@[simp] theorem countDown_toNat (b : Byte) : (countDown b).toNat = b.toNat - 1 := by
  simp only [countDown, BitVec.toNat_ofNat]; omega

theorem tick_live (h : ¬ Halted s) : tick s = (s.setDt (countDown s.dt)).setSt (countDown s.st) := by
  unfold tick
  split
  · rfl
  · rfl
  · rename_i c p w hr; exact absurd ⟨c, p, w, hr⟩ h

theorem tick_halted (h : Halted s) : tick s = s := by
  obtain ⟨c, p, w, h⟩ := h
  unfold tick; split <;> simp_all

theorem keyPress_awaitKey (k : Key) (r : Reg) (h : s.run = .awaitKey r) :
    keyPress k s = (s.setReg r (BitVec.ofNat 8 k.val)).setRun .running := by
  unfold keyPress; split <;> simp_all

theorem keyPress_dropped (k : Key) (h : ∀ r, s.run ≠ .awaitKey r) : keyPress k s = s := by
  unfold keyPress; split <;> simp_all

/-! ## The step -/

/-- A step is the next transaction. -/
theorem step_eq (t : Transaction) (h : s.nextTransaction = t) : step s = perform t s.takeTransaction := by
  rw [step, h]

/-- A Step of a running block with a known word. -/
theorem step_of_decode (i : Instr) (hr : s.run = .running) (hn : s.nextTransaction = .step)
    (hd : decodeWord s.fetchWord = .ok i) : step s = exec i s.takeTransaction.advancePc := by
  have hf : s.takeTransaction.fetchWord = s.fetchWord := rfl
  rw [step_eq s _ hn, perform, engineStep_running s.takeTransaction hr]
  simp only [runInstruction, hf, hd]

/-- A Step of a running block with an unknown word. -/
theorem step_of_reject (e : Reject) (hr : s.run = .running) (hn : s.nextTransaction = .step)
    (hd : decodeWord s.fetchWord = .error e) :
    step s = .next (s.takeTransaction.advancePc.raiseFault .unknownOpcode s.fetchWord) := by
  have hf : s.takeTransaction.fetchWord = s.fetchWord := rfl
  rw [step_eq s _ hn, perform, engineStep_running s.takeTransaction hr]
  simp only [runInstruction, hf, hd]

/-- A run of at least one step starts with a step. -/
theorem run_succ_of_step (n : Nat) (t : State) (h : step s = .next t) : core.run (n + 1) s = core.run n t := by
  have h' : core.step s = .next t := h
  simp only [Host.Core.run, h']

end Sys2Proof.Machine
end

