-- ==== Sys2Proof/Tests/Slice0.lean ====
section
/-! SUPPORT. The tests: the well-formedness smoke test, every instruction's word written out from its encoding, single
steps with the results 95_test_vectors.md gives, and for each obligation's hypotheses a state that meets them. -/

namespace Sys2Proof.Tests

set_option Elab.async false

open Sys2Proof.Machine

/-! ## Helpers -/

/-- The state an outcome carries (no outcome of this machine lacks one). -/
def after : Host.Outcome State Fault Refusal → State
  | .next s => s
  | .fault _ => State.reset
  | .refused _ => State.reset

/-- The state after one step with the word placed at PC. -/
def run1 (w : Word) (s : State) : State := after (step (s.placeWord w))

/-- The reset state; its memory lists nothing (`test_reset_lists_nothing`). -/
def base : State := { State.reset with mem := [] }

/-- The reset state with some registers set. -/
def regs (l : List (Reg × Byte)) : State := l.foldl (fun s p => s.setReg p.1 p.2) base

/-- The same with every quirk bit on, in QUIRKS and in the construction. -/
def quirky (l : List (Reg × Byte)) : State :=
  let q : Quirks := ⟨true, true, true⟩
  { regs l with quirks := q, build := { defaultConstruction with quirks := q } }

/-- A state with bytes stored from an address on. -/
def bytes (a : Nat) (l : List Byte) (s : State) : State := { s with mem := loadBytes s.mem a l }

/-- The framebuffer with the cells of the list lit and every other cell unlit. -/
def litFrame (l : List (Fin 32 × Fin 64)) : Frame :=
  l.foldl (fun f p => f.set p.1 ((f[p.1]).set p.2 true)) clearFrame

/-- How many bytes of memory are listed. -/
def listed (s : State) : Nat := s.mem.length

/-! ## Well-formedness -/

/-- BNNN's register must be the top nibble of its address (30_encoding.md R47). -/
theorem test_wf_refuses_jpV0 : (Instr.jpV0 3 0x200).wf = false := by decide

theorem test_wf_accepts_jpV0 : (Instr.jpV0 2 0x200).wf = true := by decide

/-! ## Decoding: 30_encoding.md R45 and R49, each word written bit by bit (op, then the fields) -/

theorem test_decode_cls : decodeWord 0b0000000011100000 = .ok .cls := by decide
theorem test_decode_ret : decodeWord 0b0000000011101110 = .ok .ret := by decide
theorem test_decode_jp : decodeWord 0b0001101010111100 = .ok (.jp 0xABC) := by decide
theorem test_decode_call : decodeWord 0b0010001100000001 = .ok (.call 0x301) := by decide
theorem test_decode_seByte : decodeWord 0b0011001100010000 = .ok (.seByte 3 0x10) := by decide
theorem test_decode_sneByte : decodeWord 0b0100001100010001 = .ok (.sneByte 3 0x11) := by decide
theorem test_decode_seReg : decodeWord 0b0101000100100000 = .ok (.seReg 1 2) := by decide
theorem test_decode_ldByte : decodeWord 0b0110101000000010 = .ok (.ldByte 0xA 0x02) := by decide
theorem test_decode_addByte : decodeWord 0b0111111110000001 = .ok (.addByte 0xF 0x81) := by decide
theorem test_decode_ldReg : decodeWord 0b1000000100100000 = .ok (.ldReg 1 2) := by decide
theorem test_decode_orReg : decodeWord 0b1000000100100001 = .ok (.orReg 1 2) := by decide
theorem test_decode_andReg : decodeWord 0b1000000100100010 = .ok (.andReg 1 2) := by decide
theorem test_decode_xorReg : decodeWord 0b1000000100100011 = .ok (.xorReg 1 2) := by decide
theorem test_decode_addReg : decodeWord 0b1000101010110100 = .ok (.addReg 0xA 0xB) := by decide
theorem test_decode_subReg : decodeWord 0b1000000100100101 = .ok (.subReg 1 2) := by decide
theorem test_decode_shr : decodeWord 0b1000000100100110 = .ok (.shr 1 2) := by decide
theorem test_decode_subn : decodeWord 0b1000000100100111 = .ok (.subn 1 2) := by decide
theorem test_decode_shl : decodeWord 0b1000000100101110 = .ok (.shl 1 2) := by decide
theorem test_decode_sneReg : decodeWord 0b1001000100100000 = .ok (.sneReg 1 2) := by decide
theorem test_decode_ldI : decodeWord 0b1010001000001010 = .ok (.ldI 0x20A) := by decide
theorem test_decode_jpV0 : decodeWord 0b1011001000001010 = .ok (.jpV0 2 0x20A) := by decide
theorem test_decode_rnd : decodeWord 0b1100001100001111 = .ok (.rnd 3 0x0F) := by decide
theorem test_decode_drw : decodeWord 0b1101111100000101 = .ok (.drw 0xF 0 5) := by decide
theorem test_decode_skp : decodeWord 0b1110010110011110 = .ok (.skp 5) := by decide
theorem test_decode_sknp : decodeWord 0b1110010110100001 = .ok (.sknp 5) := by decide
theorem test_decode_ldVxDT : decodeWord 0b1111001100000111 = .ok (.ldVxDT 3) := by decide
theorem test_decode_ldVxK : decodeWord 0b1111010100001010 = .ok (.ldVxK 5) := by decide
theorem test_decode_ldDTVx : decodeWord 0b1111000100010101 = .ok (.ldDTVx 1) := by decide
theorem test_decode_ldSTVx : decodeWord 0b1111000100011000 = .ok (.ldSTVx 1) := by decide
theorem test_decode_addI : decodeWord 0b1111001000011110 = .ok (.addI 2) := by decide
theorem test_decode_ldF : decodeWord 0b1111000000101001 = .ok (.ldF 0) := by decide
theorem test_decode_ldB : decodeWord 0b1111101000110011 = .ok (.ldB 0xA) := by decide
theorem test_decode_storeRegs : decodeWord 0b1111000101010101 = .ok (.storeRegs 1) := by decide
theorem test_decode_loadRegs : decodeWord 0b1111111101100101 = .ok (.loadRegs 0xF) := by decide

/-- 30_encoding.md R50: words of no row (V-C6, V-C7, V-C15, V-C17, V-K7, V-K8). -/
theorem test_decode_unknown :
    [0x5121#16, 0x9128#16, 0x0123#16, 0x0000#16, 0xE09F#16, 0xF0FF#16, 0x8128#16].map decodeWord =
      List.replicate 7 (.error .unknownOpcode) := by decide

/-- 20_memory.md R34: the first byte is the high one. -/
theorem test_decode_bytes : decode [0x6A, 0x02, 0x33] = .ok (.ldByte 0xA 0x02, [0x33]) := by decide

/-- Fewer than two bytes are no word. -/
theorem test_decode_truncated : decode [0x6A] = .error .truncated := by decide

/-- The host's reading of a table row. -/
theorem test_decodeTableWord : decodeTableWord 16 0x8124 = some (.addReg 1 2) ∧ decodeTableWord 16 0 = none := by decide

/-! ## ALU: 95_test_vectors.md, V-A -/

/-- V-A1. -/
theorem test_addByte_wraps :
    ((run1 0x70FF (regs [(0, 0xFF), (VF, 0x55)])).reg 0, (run1 0x70FF (regs [(0, 0xFF), (VF, 0x55)])).reg VF) =
      (0xFE, 0x55) := by decide +kernel
/-- V-A2. -/
theorem test_addByte_vf : (run1 0x7F01 (regs [(VF, 0x01)])).reg VF = 0x02 := by decide +kernel
/-- V-A4. -/
theorem test_addReg_largest :
    let t := run1 0x8124 (regs [(1, 0xFF), (2, 0xFF)]); (t.reg 1, t.reg VF, t.pc) = (0xFE, 1, 0x202) := by decide +kernel
/-- V-A6, with both values of the parameter. -/
theorem test_addReg_into_vf :
    let s := regs [(VF, 0x10), (1, 0x02)]
    ((run1 0x8F14 s).reg VF,
      (run1 0x8F14 { s with build := { s.build with vfResultLast := true } }).reg VF) = (0, 0x12) := by decide +kernel
/-- V-A8. -/
theorem test_subReg_equal :
    let t := run1 0x8125 (regs [(1, 7), (2, 7)]); (t.reg 1, t.reg VF) = (0, 1) := by decide +kernel
/-- V-A9. -/
theorem test_subReg_borrow :
    let t := run1 0x8125 (regs [(1, 0), (2, 1)]); (t.reg 1, t.reg VF) = (0xFF, 0) := by decide +kernel
/-- V-A11. -/
theorem test_subn_no_borrow :
    let t := run1 0x8127 (regs [(1, 5), (2, 7)]); (t.reg 1, t.reg VF) = (2, 1) := by decide +kernel
/-- V-A12. -/
theorem test_subn_borrow :
    let t := run1 0x8127 (regs [(1, 1), (2, 0)]); (t.reg 1, t.reg VF) = (0xFF, 0) := by decide +kernel
/-- V-A13. -/
theorem test_shr_off :
    let t := run1 0x8126 (regs [(1, 0x05), (2, 0x80)]); (t.reg 1, t.reg 2, t.reg VF) = (0x02, 0x80, 1) := by
  decide +kernel
/-- V-A14. -/
theorem test_shr_on :
    let t := run1 0x8126 (quirky [(1, 0x05), (2, 0x80)]); (t.reg 1, t.reg 2, t.reg VF) = (0x40, 0x80, 0) := by
  decide +kernel
/-- V-A15. -/
theorem test_shl_off :
    let t := run1 0x812E (regs [(1, 0x81), (2, 0x01)]); (t.reg 1, t.reg VF) = (0x02, 1) := by decide +kernel
/-- V-A16. -/
theorem test_shl_on :
    let t := run1 0x812E (quirky [(1, 0x81), (2, 0x01)]); (t.reg 1, t.reg VF) = (0x02, 0) := by decide +kernel
/-- V-A19. -/
theorem test_orReg :
    let t := run1 0x8121 (regs [(1, 0xF0), (2, 0x0F), (VF, 0x77)]); (t.reg 1, t.reg VF) = (0xFF, 0x77) := by
  decide +kernel
/-- V-A20. -/
theorem test_andReg :
    let t := run1 0x8122 (regs [(1, 0xF0), (2, 0x3C), (VF, 0x77)]); (t.reg 1, t.reg VF) = (0x30, 0x77) := by
  decide +kernel
/-- V-A21. -/
theorem test_xorReg_self : (run1 0x8113 (regs [(1, 0x5A)])).reg 1 = 0 := by decide +kernel
/-- V-A22. -/
theorem test_ldReg : (run1 0x8120 (regs [(2, 0x33)])).reg 1 = 0x33 := by decide +kernel
/-- V-A23. -/
theorem test_rnd_mask : (run1 0xC30F { regs [] with rand := [0xA7] }).reg 3 = 0x07 := by decide +kernel
/-- V-A24: the draw is consumed. -/
theorem test_rnd_zero_mask :
    let t := run1 0xC300 { regs [(3, 9)] with rand := [0xFF] }; (t.reg 3, t.rand) = (0, []) := by decide +kernel
/-- V-A25. -/
theorem test_ldByte : (run1 0x6A02 (regs [])).reg 0xA = 0x02 := by decide +kernel

/-! ## Control flow: 95_test_vectors.md, V-C -/

/-- V-C1, V-C2. -/
theorem test_seByte : ((run1 0x3310 (regs [(3, 0x10)])).pc, (run1 0x3311 (regs [(3, 0x10)])).pc) = (0x204, 0x202) := by
  decide +kernel
/-- V-C16: PC and the fetch wrap. -/
theorem test_seByte_wraps : (run1 0x3000 { regs [] with pc := 0xFFFE }).pc = 0x0002 := by decide +kernel
/-- V-C3. -/
theorem test_sneByte : (run1 0x4311 (regs [(3, 0x10)])).pc = 0x204 := by decide +kernel
/-- V-C4. -/
theorem test_seReg_self : (run1 0x5110 (regs [])).pc = 0x204 := by decide +kernel
/-- V-C5. -/
theorem test_sneReg_self : (run1 0x9110 (regs [])).pc = 0x202 := by decide +kernel
/-- V-C8. -/
theorem test_jp : (run1 0x1ABC (regs [])).pc = 0x0ABC := by decide +kernel
/-- V-C9. -/
theorem test_call :
    let t := run1 0x2300 (regs []); (t.pc, t.sp.val, t.stack[0]) = (0x300, 1, 0x202) := by decide +kernel
/-- V-C11. -/
theorem test_call_overflow :
    let t := run1 0x2300 { regs [] with sp := 16 }
    (t.pc, t.sp.val, t.run) = (0x202, 16, .halted .stackOverflow 0x200 0x2300) := by decide +kernel
/-- V-C10. -/
theorem test_ret_underflow :
    let t := run1 0x00EE (regs []); (t.pc, t.sp.val, t.run) = (0x202, 0, .halted .stackUnderflow 0x200 0x00EE) := by
  decide +kernel
/-- W4: the return after a call from 0x204. -/
theorem test_ret_after_call :
    let t := run1 0x00EE (run1 0x2300 { regs [] with pc := 0x204 }); (t.pc, t.sp.val) = (0x206, 0) := by decide +kernel
/-- V-C12, V-C13. -/
theorem test_jpV0 :
    ((run1 0xB200 (quirky [(0, 2), (2, 0x10)])).pc, (run1 0xB200 (regs [(0, 2), (2, 0x10)])).pc) = (0x202, 0x210) := by
  decide +kernel
/-- V-C14: the sum is not reduced, and the next fetch reads the bytes at 0x0FE and 0x0FF. -/
theorem test_jpV0_past_memory :
    let t := run1 0xBFFF (bytes 0x0FE [0x12, 0x34] (regs [(VF, 0xFF)])); (t.pc, t.fetchWord) = (0x10FE, 0x1234) := by
  decide +kernel
/-- V-C6. -/
theorem test_unknown_halts :
    let t := run1 0x5121 (regs []); (t.pc, t.run) = (0x202, .halted .unknownOpcode 0x200 0x5121) := by decide +kernel

/-! ## Display: 95_test_vectors.md, V-D -/

/-- V-D11. -/
theorem test_cls :
    let t := run1 0x00E0 { regs [] with fb := litFrame [(5, 5)] }; (t.fb, t.out) = (litFrame [], [.clear, .present (litFrame [])]) := by
  decide +kernel
/-- V-D1: the origin wraps. -/
theorem test_drw_origin_wraps :
    let t := run1 0xD011 (bytes 0x300 [0x80] { regs [(0, 64), (1, 33)] with i := 0x300 })
    (t.fb, t.reg VF) = (litFrame [(1, 0)], 0) := by decide +kernel
/-- V-D8: VF as the coordinate is read before it is written. -/
theorem test_drw_vf_coordinate :
    let t := run1 0xDF01 (bytes 0x300 [0x80] { regs [(VF, 8)] with i := 0x300 })
    (t.fb, t.reg VF) = (litFrame [(0, 8)], 0) := by decide +kernel
/-- V-D2, V-D3: columns and rows clip. -/
theorem test_drw_clips :
    ((run1 0xD011 (bytes 0x300 [0xFF] { regs [(0, 60)] with i := 0x300 })).fb,
      (run1 0xD013 (bytes 0x300 [0x80, 0x80, 0x80] { regs [(1, 31)] with i := 0x300 })).fb) =
      (litFrame [(0, 60), (0, 61), (0, 62), (0, 63)], litFrame [(31, 0)]) := by decide +kernel
/-- V-D5, its second draw: a partial overlap. -/
theorem test_drw_collision :
    let t := run1 0xD011 (bytes 0x301 [0x60] { regs [] with i := 0x301, fb := litFrame [(0, 0), (0, 1)] })
    (t.fb, t.reg VF) = (litFrame [(0, 0), (0, 2)], 1) := by decide +kernel
/-- V-D9: the sprite's bytes wrap. -/
theorem test_drw_bytes_wrap :
    (run1 0xD012 (bytes 0x000 [0x40] (bytes 0xFFF [0x80] { regs [] with i := 0xFFF }))).fb = litFrame [(0, 0), (1, 1)] := by
  decide +kernel

/-! ## Index register and memory: 95_test_vectors.md, V-M -/

/-- V-M1. -/
theorem test_ldI : (run1 0xA300 { regs [] with i := 0xFFFF }).i = 0x0300 := by decide +kernel
/-- V-M2. -/
theorem test_addI_wraps :
    let t := run1 0xF21E { regs [(2, 1), (VF, 0x33)] with i := 0xFFFF }; (t.i, t.reg VF) = (0, 0x33) := by decide +kernel
/-- V-M3. -/
theorem test_addI_past_memory : (run1 0xF21E { regs [(2, 1)] with i := 0x0FFF }).i = 0x1000 := by decide +kernel
/-- V-M4, V-M5. -/
theorem test_ldF : ((run1 0xF029 (regs [(0, 0x1A)])).i, (run1 0xF029 (regs [(0, 0x0F)])).i) = (0x082, 0x09B) := by
  decide +kernel
/-- V-M6. -/
theorem test_ldB :
    let t := run1 0xF033 { regs [(0, 255)] with i := 0x300 }
    ([0x300, 0x301, 0x302].map t.readByte, t.i) = ([2, 5, 5], 0x300) := by decide +kernel
/-- V-M8. -/
theorem test_ldB_wraps :
    let t := run1 0xF033 { regs [(0, 123)] with i := 0xFFF }
    [0xFFF, 0x000, 0x001].map t.readByte = [1, 2, 3] := by decide +kernel
/-- V-M9. -/
theorem test_storeRegs :
    let t := run1 0xF155 { regs [(0, 1), (1, 2), (2, 3)] with i := 0x300 }
    ([0x300, 0x301, 0x302].map t.readByte, t.i) = ([1, 2, 0], 0x300) := by decide +kernel
/-- V-M10. -/
theorem test_storeRegs_increments : (run1 0xF155 { quirky [(0, 1), (1, 2)] with i := 0x300 }).i = 0x302 := by
  decide +kernel
/-- V-M11. -/
theorem test_loadRegs_vf :
    let t := run1 0xFF65 (bytes 0x30F [0xAB] { regs [(3, 9)] with i := 0x300 }); (t.reg VF, t.reg 3) = (0xAB, 0) := by
  decide +kernel
/-- V-M12. -/
theorem test_loadRegs_wraps :
    let t := run1 0xF065 (bytes 0xFFF [0x42] { quirky [] with i := 0xFFFF }); (t.reg 0, t.i) = (0x42, 0) := by
  decide +kernel
/-- Writing what an unlisted address reads as removes the entry (V-M7 leaves nothing listed but the word placed). -/
theorem test_memory_canonical :
    listed (run1 0xF033 (bytes 0x300 [9, 9, 9] { regs [] with i := 0x300 })) = 2 := by decide +kernel

/-! ## Keys, timers and the other transactions: 95_test_vectors.md, V-K -/

/-- V-K1, V-K2. -/
theorem test_skp :
    ((run1 0xE59E { regs [(5, 0xA)] with keys := 0x0400 }).pc, (run1 0xE59E (regs [(5, 0xA)])).pc) = (0x204, 0x202) := by
  decide +kernel
/-- V-K3. -/
theorem test_sknp : (run1 0xE5A1 (regs [(5, 0xA)])).pc = 0x204 := by decide +kernel
/-- V-K4. -/
theorem test_sknp_fault :
    let t := run1 0xE5A1 (regs [(5, 0x10)]); (t.pc, t.run) = (0x202, .halted .keyOutOfRange 0x200 0xE5A1) := by
  decide +kernel
/-- V-K5. -/
theorem test_ldVxDT : (run1 0xF307 { regs [] with dt := 0x3C }).reg 3 = 0x3C := by decide +kernel
/-- V-K6, its first step. -/
theorem test_ldDTVx : let t := run1 0xF115 (regs [(1, 5)]); (t.dt, t.st) = (5, 0) := by decide +kernel
/-- V-K6, its second step. -/
theorem test_ldSTVx : let t := run1 0xF118 (regs [(1, 5)]); (t.dt, t.st) = (0, 5) := by decide +kernel
/-- V-K12: the wait. -/
theorem test_ldVxK_waits :
    let t := run1 0xF50A (regs []); (t.run, t.pc, after (step t) == t) = (.awaitKey 5, 0x202, true) := by decide +kernel
/-- V-K12: the release. -/
theorem test_ldVxK_release :
    let t := after (step { run1 0xF50A (regs []) with schedule := [.keyPress 7] })
    (t.reg 5, t.run, t.pc) = (7, .running, 0x202) := by decide +kernel
/-- V-K9. -/
theorem test_tick_clamps :
    let t := after (step { regs [] with dt := 1, schedule := [.tick] }); (t.dt, t.st) = (0, 0) := by decide +kernel
/-- V-K10. -/
theorem test_tick_halted :
    (after (step { run1 0x0000 { regs [] with dt := 3 } with schedule := [.tick] })).dt = 3 := by decide +kernel
/-- V-K11. -/
theorem test_keyPress_dropped :
    after (step { regs [] with schedule := [.keyPress 4] }) = regs [] := by decide +kernel
/-- 00_scope.md R8: the host changes the held keys. -/
theorem test_setKeys : (after (step { regs [] with schedule := [.setKeys 0x8001] })).keys = 0x8001 := by decide +kernel

/-! ## Reset: 95_test_vectors.md, V-R -/

/-- V-R2. -/
theorem test_image_rejected :
    (State.resetWith { defaultConstruction with image := List.replicate 3585 1 }).run = .halted .imageRejected 0 0 := by
  decide +kernel
/-- V-R3. -/
theorem test_font :
    (([0x050, 0x051, 0x052, 0x053, 0x054] ++ [0x09B, 0x09C, 0x09D, 0x09E, 0x09F]).map State.reset.readByte) =
      [0xF0, 0x90, 0x90, 0x90, 0xF0] ++ [0xF0, 0x80, 0xF0, 0x80, 0x80] := by decide +kernel
/-- V-R4. -/
theorem test_empty_image :
    let t := after (step State.reset); (t.run, t.pc) = (.halted .unknownOpcode 0x200 0x0000, 0x202) := by decide +kernel
/-- The canonical form lists only what differs from the initial contents. -/
theorem test_reset_lists_nothing : State.reset.mem = [] := by decide +kernel
/-- The image lands at 0x200, and `withFetchWord` makes the next step run its word. -/
theorem test_withFetchWord : (after (step (State.reset.withFetchWord 16 0x6A02))).reg 0xA = 2 := by decide +kernel

/-! ## States that meet the obligations' hypotheses

Each theorem is named after its obligation. Boundary values: the first and last stack levels, keys 15 and 16, images of
3584 and 3585 bytes. -/

/-- The font and quirks of the default, an image of n bytes. -/
def withImage (n : Nat) : Construction := { defaultConstruction with image := List.replicate n 0x60 }

/-- A state with a schedule. -/
def scheduled (l : List Transaction) (s : State) : State := { s with schedule := l }

theorem witness_ResetFixesEveryField :
    (scheduled [.reset] (regs [(1, 1)])).nextTransaction = .reset ∧ (withImage 3584).image.length ≤ 3584 ∧
      0x200 ≤ 4095 ∧ 4095 < 4096 ∧ 4095 - 0x200 < (withImage 3584).image.length := by decide +kernel

theorem witness_LoaderCopiesOrRejectsImage :
    ((withImage 3584).image.length ≤ 3584 ∧ 3583 < (withImage 3584).image.length) ∧
    ((withImage 3).image.length ≤ 3584 ∧ 0x200 + (withImage 3).image.length ≤ 0x203 ∧ 0x203 < 4096) ∧
    (withImage 3585).image.length > 3584 ∧ (withImage 0).image = [] := by decide +kernel

theorem witness_DispatchFollowsTheOpcodeMap :
    (∃ f ∈ opcodeRows, (rowOf (f 0x8124)).selects 0x8124 = true) ∧
    ∀ f ∈ opcodeRows, (rowOf (f 0x8128)).selects 0x8128 = false := by decide +kernel

theorem witness_DecodeOfEncodeIsIdentity : (Instr.jpV0 0xF 0xFFF).wf = true ∧ (Instr.drw 0xF 0 0xF).wf = true := by
  decide

theorem witness_EncodeOfDecodeIsIdentity : decodeWord 0xBFFF = .ok (.jpV0 0xF 0xFFF) := by decide

theorem witness_StepFetchesAdvancesAndExecutes :
    let s := bytes 0xFFF [0x6A] (bytes 0 [0x02] { regs [] with pc := 0xFFFF })
    s.run = .running ∧ s.nextTransaction = .step ∧ decodeWord s.fetchWord = .ok (.ldByte 0xA 0x02) ∧
      decodeWord (regs []).fetchWord = .error .unknownOpcode ∧ (regs []).run = .running := by decide +kernel

theorem witness_UnknownOpcodeIsFatal :
    (regs []).run = .running ∧ (regs []).nextTransaction = .step ∧
      ∀ f ∈ opcodeRows, (rowOf (f (regs []).fetchWord)).selects (regs []).fetchWord = false := by decide +kernel

/-- A block that waits for a key into V5 after F50A. -/
def waiting : State := run1 0xF50A (regs [(1, 3)])

theorem witness_FaultsArePrecise :
    let s := (regs []).placeWord 0x00EE
    s.run = .running ∧ s.nextTransaction = .step ∧ (after (step s)).run = .halted .stackUnderflow 0x200 0x00EE ∧
      (after (step (regs []))).run = .halted .unknownOpcode 0x200 0 := by decide +kernel

theorem witness_SelfJumpParks :
    let s := (regs []).placeWord 0x1200
    s.run = .running ∧ s.schedule = [] ∧ s.pc.toNat = (0x200 : Addr).toNat ∧ s.fetchWord = wordNNN 0x1 0x200 := by
  decide +kernel

theorem witness_WaitEndsOnlyByKeyPressOrReset :
    waiting.run = .awaitKey 5 ∧ waiting.nextTransaction = .step ∧
      (after (step (scheduled [.keyPress 0xF] waiting))).run ≠ .awaitKey 5 ∧
      (after (step (scheduled [.reset] waiting))).run ≠ .awaitKey 5 := by decide +kernel

theorem witness_next (s : State) (h : ∃ t, step s = .next t) : step s = .next (after (step s)) := by
  obtain ⟨t, h⟩ := h; rw [h]; rfl

/-- A block halted by the word 0. -/
def stopped : State := run1 0x0000 (regs [])

theorem witness_HaltedUntilReset :
    Halted stopped ∧ stopped.nextTransaction ≠ .reset ∧ (scheduled [.reset] stopped).nextTransaction = .reset ∧
      stopped.build.image.length ≤ 3584 := by
  refine ⟨⟨.unknownOpcode, 0x200, 0, ?_⟩, ?_⟩ <;> decide +kernel

theorem witness_TickLowersBothTimers :
    (scheduled [.tick] stopped).nextTransaction = .tick ∧ Halted stopped ∧ ¬ Halted (regs []) := by
  refine ⟨by decide +kernel, witness_HaltedUntilReset.1, ?_⟩
  rintro ⟨c, p, w, h⟩
  cases h

theorem witness_TicksReachZeroAndStay :
    ¬ Halted (scheduled (List.replicate 6 .tick) { regs [] with dt := 5 }) ∧
      (scheduled (List.replicate 6 .tick) { regs [] with dt := 5 }).schedule = List.replicate 6 .tick := by
  refine ⟨?_, rfl⟩
  rintro ⟨c, p, w, h⟩
  cases h

theorem witness_KeyPressEndsOnlyAWait :
    (scheduled [.keyPress 0xF] waiting).nextTransaction = .keyPress 0xF ∧
      (scheduled [.keyPress 0xF] waiting).run = .awaitKey 5 ∧
      (scheduled [.keyPress 0] (regs [])).nextTransaction = .keyPress 0 ∧ ∀ r, (regs []).run ≠ .awaitKey r := by
  decide +kernel

theorem witness_WaitForKeyRunsToThePress :
    (∀ e ∈ [Transaction.tick, .step, .tick], e = .step ∨ e = .tick) ∧
      (after (exec (.ldVxK 5) (scheduled [.tick, .step, .tick, .keyPress 9] (regs [])))).schedule =
        [Transaction.tick, .step, .tick] ++ [.keyPress 9] := by decide +kernel

theorem witness_ShiftsUseTheQuirkSource :
    (0x01 : Byte) = (if (quirky [(1, 0x80), (2, 1)]).quirks.shiftUsesVy then (quirky [(1, 0x80), (2, 1)]).reg 2
      else (quirky [(1, 0x80), (2, 1)]).reg 1) ∧
    (0x80 : Byte) = (if (regs [(1, 0x80), (2, 1)]).quirks.shiftUsesVy then (regs [(1, 0x80), (2, 1)]).reg 2
      else (regs [(1, 0x80), (2, 1)]).reg 1) := by decide +kernel

theorem witness_RandomByteUnderMask : ({ regs [] with rand := [0xA7, 1] } : State).rand = 0xA7 :: [1] := rfl

theorem witness_CallPushesOrOverflows :
    ({ regs [] with sp := 0 } : State).sp.val < 16 ∧ ({ regs [] with sp := 15 } : State).sp.val < 16 ∧
      ({ regs [] with sp := 16 } : State).sp.val = 16 := by decide

theorem witness_ReturnPopsOrUnderflows :
    ({ regs [] with sp := 1 } : State).sp.val = (0 : Fin 16).val + 1 ∧
      ({ regs [] with sp := 16 } : State).sp.val = (15 : Fin 16).val + 1 ∧ ({ regs [] with sp := 0 } : State).sp.val = 0 := by
  decide

theorem witness_ReturnUndoesCall :
    ({ regs [] with sp := 15 } : State).sp.val < 16 ∧
    (∃ t, exec (.call 0x300) { regs [] with sp := 15 } = .next t ∧ t.sp.val = 16) :=
  ⟨by decide, _, rfl, rfl⟩

theorem witness_SkipsAddTwo : (1 : BitVec 4) ≠ 0 ∧ (0xF : BitVec 4) ≠ 0 := by decide

theorem witness_KeySkipsOrFault :
    ((regs [(5, 15)]).reg 5).toNat ≤ 15 ∧ ((regs [(5, 16)]).reg 5).toNat > 15 := by decide +kernel

theorem witness_MemoriesThatReadAlikeAreEqual :
    Memory.wf [(0x300, 1)] = true ∧ (Memory.write [(0x300, 2)] 0x300 1).wf = true ∧
      ∀ a, Memory.read [(0x300, 1)] a = (Memory.write [(0x300, 2)] 0x300 1).read a :=
  ⟨by decide, by decide, fun _ => rfl⟩

theorem witness_DecimalDigitsAreStored :
    let s : State := { regs [(0, 123)] with i := 0xFFF }
    ∀ b ∈ storedAddresses (.ldB 0) s, 0xFFE % 4096 ≠ b % 4096 ∧ 2 % 4096 ≠ b % 4096 := by decide +kernel

theorem witness_RegistersAreStored :
    let s : State := { regs [(0, 1)] with i := 0xFFF }
    (∀ b ∈ storedAddresses (.storeRegs 1) s, 0xFFE % 4096 ≠ b % 4096 ∧ 1 % 4096 ≠ b % 4096) ∧
      (0 : Reg) ≤ 1 ∧ (1 : Reg) ≤ 1 := by decide +kernel

theorem witness_LoadUndoesStore :
    ∃ t, exec (.storeRegs 0xF) (quirky [(0, 1)]) = .next t ∧ ({ t with i := 0 } : State).mem = t.mem ∧
      ({ t with i := 0 } : State).i = (quirky [(0, 1)]).i := ⟨_, rfl, rfl, rfl⟩

theorem witness_StoredWordIsFetchedNext :
    let s : State := { regs [(0, 0x6A), (1, 2)] with i := 0x200 }
    (∃ t, exec (.storeRegs 1) s = .next t) ∧ (1 : Reg).val = (0 : Reg).val + 1 ∧ (1 : Reg) ≤ 1 ∧
      s.indexed 0 % 4096 = s.pc.toNat % 4096 ∧ ∃ t, exec (.ldB 1) s = .next t :=
  ⟨⟨_, rfl⟩, by decide, by decide, by decide +kernel, _, rfl⟩

/-- A sprite byte of ones at 0x300 and I on it. -/
def sprite : State := bytes 0x300 [0xFF] { regs [(0, 60)] with i := 0x300 }

theorem witness_DrawTogglesTheVisibleSprite :
    (({ sprite with fb := litFrame [(0, 63)] } : State).cell 0 63 = true ∧
      drwPixel { sprite with fb := litFrame [(0, 63)] } 0 1 1 0 63 = true) ∧
      (∀ row col, sprite.cell row col = true → drwPixel sprite 0 1 1 row col = false) ∧ (0xE : Reg) ≠ VF := by
  refine ⟨by decide +kernel, fun row col h => ?_, by decide⟩
  have dark : sprite.cell row col = false := by
    show (Vector.replicate 32 (Vector.replicate 64 false))[row][col] = false
    simp
  rw [dark] at h
  cases h

theorem witness_DrawTwiceRestores :
    (0 : Reg) ≠ VF ∧ (0xE : Reg) ≠ VF ∧ sprite.cell 0 60 = false ∧ drwPixel sprite 0 1 1 0 60 = true := by
  decide +kernel

theorem witness_RegistersHaveTheirWriters :
    (∃ t, exec (.addReg 1 2) (regs []) = .next t) ∧ (0 : Reg) ∉ destRegs (.addReg 1 2) ∧
      (0xE : Reg) ∉ destRegs (.loadRegs 0xD) := ⟨⟨_, rfl⟩, by decide, by decide⟩

theorem witness_MemoryHasItsWriters :
    (∃ t, exec (.ldB 0) (regs []) = .next t) ∧
      (∀ b ∈ storedAddresses (.ldB 0) (regs []), 3 % 4096 ≠ b % 4096) ∧
      ∀ b ∈ storedAddresses .cls (regs []), 3 % 4096 ≠ b % 4096 := ⟨⟨_, rfl⟩, by decide +kernel, by decide +kernel⟩

/-- Each change the statement speaks of happens in some state. -/
theorem witness_OtherStateHasItsWriters :
    (after (exec (.ldI 1) (regs []))).i ≠ (regs []).i ∧ (after (exec (.call 1) (regs []))).sp ≠ (regs []).sp ∧
      (after (exec (.ldVxK 1) (regs []))).run ≠ (regs []).run ∧ (after (exec .ret (regs []))).run ≠ (regs []).run ∧
      (after (exec .cls { regs [] with fb := litFrame [(0, 0)] })).fb ≠ litFrame [(0, 0)] ∧
      (after (exec (.rnd 1 0) (regs []))).draws ≠ (regs []).draws := by decide +kernel

theorem witness_QuirksNeverChange :
    (quirky []).quirks = (quirky []).build.quirks ∧ ∃ t, step (scheduled [.reset] (quirky [])) = .next t :=
  ⟨rfl, _, rfl⟩

theorem witness_SoundTimerIsReadByNothing : ∀ x, Instr.ldDTVx 1 ≠ .ldSTVx x := by decide

theorem witness_KeysAreReadBySkipsOnly : ∀ x, Instr.ldVxK 1 ≠ .skp x ∧ Instr.ldVxK 1 ≠ .sknp x := by decide

theorem witness_StaleStackEntriesAreUnobservable :
    let s : State := { regs [] with sp := 1 }
    SameUpToStale s { s with stack := s.stack.set 1 7 } ∧ s ≠ { s with stack := s.stack.set 1 7 } ∧
      ∃ t, step (scheduled [.tick] s) = .next t := by
  refine ⟨⟨rfl, ?_⟩, by decide +kernel, _, rfl⟩
  intro k hk
  have hk0 : k = 0 := Fin.ext (by simpa using hk)
  subst hk0
  rfl

/-- The invariant of running, waiting, halted and image-rejected blocks. -/
theorem witness_StepKeepsInv_running : BlockInv (regs []) ∧ ∃ t, step (regs []) = .next t := by
  refine ⟨⟨by decide +kernel, rfl, ?_⟩, _, witness_next _ ?_⟩
  · show (0 : Nat) ≤ 3584; decide
  · rw [step_of_reject (regs []) .unknownOpcode rfl rfl (by decide +kernel)]; exact ⟨_, rfl⟩

theorem witness_StepKeepsInv_waiting : BlockInv waiting ∧ ∃ t, step (scheduled [.tick] waiting) = .next t := by
  refine ⟨⟨by decide +kernel, by decide +kernel, ?_⟩, _, rfl⟩
  have h : waiting.run = .awaitKey 5 := by decide +kernel
  unfold RunTruthful
  rw [h]
  exact ⟨by decide +kernel, by decide +kernel⟩

theorem witness_StepKeepsInv_halted : BlockInv stopped := by
  refine ⟨by decide +kernel, by decide +kernel, ?_⟩
  have h : stopped.run = .halted .unknownOpcode 0x200 0 := by decide +kernel
  unfold RunTruthful
  rw [h]
  exact ⟨by decide +kernel, by decide +kernel, by decide +kernel, .unknownOpcode, by decide⟩

theorem witness_StepKeepsInv_rejected : BlockInv (State.resetWith (withImage 3585)) := by
  refine ⟨by decide +kernel, rfl, ?_⟩
  have h : (State.resetWith (withImage 3585)).run = .halted .imageRejected 0 0 := by decide +kernel
  unfold RunTruthful
  rw [h]
  exact ⟨by decide +kernel, rfl, rfl⟩

end Sys2Proof.Tests
end

section
/-! SUPPORT. KEYS is an input of the two key skips only (00_scope.md R8): every operation another instruction is made of
commutes with a change of the held keys, and so does the instruction. Straight-line operations commute by computation;
the laws below are for those that branch on the state or recurse. -/

namespace Sys2Proof.Machine

/-- The state with other keys held, as the transaction `setKeys` leaves it. -/
def State.withKeys (s : State) (keys : BitVec 16) : State := { s with keys := keys }

section Operations

variable (s : State) (keys : BitVec 16)

theorem State.skipIf_withKeys (c : Bool) : (s.withKeys keys).skipIf c = (s.skipIf c).withKeys keys := by
  cases c <;> rfl

theorem State.setRegFlag_withKeys (x : Reg) (b : Byte) (f : Bool) :
    (s.withKeys keys).setRegFlag x b f = (s.setRegFlag x b f).withKeys keys := by
  unfold State.setRegFlag; rw [apply_ite (State.withKeys · keys)]; rfl

theorem State.bumpI_withKeys (x : Reg) : (s.withKeys keys).bumpI x = (s.bumpI x).withKeys keys := by
  unfold State.bumpI; rw [apply_ite (State.withKeys · keys)]; rfl

theorem storeFirst_withKeys (n : Nat) : storeFirst n (s.withKeys keys) = (storeFirst n s).withKeys keys := by
  induction n with
  | zero => rfl
  | succ n ih => rw [storeFirst, ih]; rfl

theorem loadFirst_withKeys (n : Nat) : loadFirst n (s.withKeys keys) = (loadFirst n s).withKeys keys := by
  induction n with
  | zero => rfl
  | succ n ih => rw [loadFirst, ih]; rfl

end Operations

/-- Other keys held before an instruction make no difference after it but to the held keys themselves. -/
def KeysIrrelevant (exe : State → Host.Outcome State Fault Refusal) : Prop :=
  ∀ s keys, exe (s.withKeys keys) = mapNext (fun t => t.withKeys keys) (exe s)

theorem execRet_keysIrrelevant : KeysIrrelevant execRet := fun s keys => by
  unfold execRet; rw [apply_dite (mapNext (State.withKeys · keys))]; rfl

theorem execCall_keysIrrelevant (nnn : Addr) : KeysIrrelevant (execCall nnn) := fun s keys => by
  unfold execCall; rw [apply_dite (mapNext (State.withKeys · keys))]; rfl

theorem execStoreRegs_keysIrrelevant (x : Reg) : KeysIrrelevant (execStoreRegs x) := fun s keys => by
  rw [execStoreRegs, storeFirst_withKeys, State.bumpI_withKeys]; rfl

theorem execLoadRegs_keysIrrelevant (x : Reg) : KeysIrrelevant (execLoadRegs x) := fun s keys => by
  rw [execLoadRegs, loadFirst_withKeys, State.bumpI_withKeys]; rfl

theorem exec_keysIrrelevant (i : Instr) (h : ∀ x, i ≠ .skp x ∧ i ≠ .sknp x) : KeysIrrelevant (exec i) := by
  intro s keys
  cases i with
  | skp x => exact absurd rfl (h x).1
  | sknp x => exact absurd rfl (h x).2
  | ret => exact execRet_keysIrrelevant s keys
  | call nnn => exact execCall_keysIrrelevant nnn s keys
  | storeRegs x => exact execStoreRegs_keysIrrelevant x s keys
  | loadRegs x => exact execLoadRegs_keysIrrelevant x s keys
  | seByte | sneByte | seReg | sneReg => exact congrArg Host.Outcome.next (s.skipIf_withKeys keys _)
  | addReg | subReg | shr | subn | shl => exact congrArg Host.Outcome.next (s.setRegFlag_withKeys keys _ _ _)
  | cls | jp | ldByte | addByte | ldReg | orReg | andReg | xorReg | ldI | jpV0 | rnd | drw | ldVxDT | ldVxK | ldDTVx
  | ldSTVx | addI | ldF | ldB => rfl

/-- Settles O50: every instruction but the two key skips commutes with a change of the held keys. -/
theorem keysAreReadBySkipsOnly : Obligations.KeysAreReadBySkipsOnly :=
  fun i s keys h => exec_keysIrrelevant i h s keys

end Sys2Proof.Machine
end

section
/-! SUPPORT. QUIRKS and the construction inputs are written by no transaction but reset, which applies the construction
again (10_state.md R27; 70_reset_and_hazards.md R121). -/

namespace Sys2Proof.Machine

/-- QUIRKS and the construction inputs are the same in both. -/
def SameConstruction (s t : State) : Prop := t.quirks = s.quirks ∧ t.build = s.build

theorem storeFirst_sameConstruction (n : Nat) (s : State) : SameConstruction s (storeFirst n s) := by
  rw [storeFirst_only_mem]; exact ⟨rfl, rfl⟩

theorem loadFirst_sameConstruction (n : Nat) (s : State) : SameConstruction s (loadFirst n s) := by
  rw [loadFirst_only_v]; exact ⟨rfl, rfl⟩

theorem State.bumpI_sameConstruction {s t : State} (x : Reg) (h : SameConstruction s t) :
    SameConstruction s (t.bumpI x) := by
  rwa [SameConstruction, State.bumpI_quirks, State.bumpI_build]

theorem State.skipIf_sameConstruction (s : State) (c : Bool) : SameConstruction s (s.skipIf c) :=
  ⟨s.skipIf_quirks c, s.skipIf_build c⟩

theorem State.setRegFlag_sameConstruction (s : State) (x : Reg) (b : Byte) (f : Bool) :
    SameConstruction s (s.setRegFlag x b f) :=
  ⟨s.setRegFlag_quirks x b f, s.setRegFlag_build x b f⟩

/-- Every instruction answers with a next state that has the same construction. -/
theorem exec_sameConstruction (i : Instr) (s : State) : ∃ t, exec i s = .next t ∧ SameConstruction s t := by
  cases i with
  | ret | call => simp only [exec, execRet, execCall]; split <;> exact ⟨_, rfl, rfl, rfl⟩
  | skp | sknp =>
    simp only [exec, execSkp, execSknp]; split
    · exact ⟨_, rfl, rfl, rfl⟩
    · exact ⟨_, rfl, s.skipIf_sameConstruction _⟩
  | seByte | sneByte | seReg | sneReg => exact ⟨_, rfl, s.skipIf_sameConstruction _⟩
  | addReg | subReg | shr | subn | shl => exact ⟨_, rfl, s.setRegFlag_sameConstruction _ _ _⟩
  | storeRegs x => exact ⟨_, rfl, State.bumpI_sameConstruction x (storeFirst_sameConstruction _ s)⟩
  | loadRegs x => exact ⟨_, rfl, State.bumpI_sameConstruction x (loadFirst_sameConstruction _ s)⟩
  | cls | jp | ldByte | addByte | ldReg | orReg | andReg | xorReg | ldI | jpV0 | rnd | drw | ldVxDT | ldVxK | ldDTVx
  | ldSTVx | addI | ldF | ldB => exact ⟨_, rfl, rfl, rfl⟩

theorem engineStep_sameConstruction (s : State) : ∃ t, engineStep s = .next t ∧ SameConstruction s t := by
  unfold engineStep
  split
  · unfold runInstruction
    split
    · exact exec_sameConstruction _ s.advancePc
    · exact ⟨_, rfl, rfl, rfl⟩
  · exact ⟨_, rfl, rfl, rfl⟩
  · exact ⟨_, rfl, rfl, rfl⟩

theorem tick_sameConstruction (s : State) : SameConstruction s (tick s) := by
  unfold tick; split <;> exact ⟨rfl, rfl⟩

theorem keyPress_sameConstruction (k : Key) (s : State) : SameConstruction s (keyPress k s) := by
  unfold keyPress; split <;> exact ⟨rfl, rfl⟩

/-- A reset puts the construction's bits in QUIRKS, where they were already. -/
theorem perform_sameConstruction (tr : Transaction) (s : State) (h : s.quirks = s.build.quirks) :
    ∃ t, perform tr s = .next t ∧ SameConstruction s t := by
  cases tr with
  | step => exact engineStep_sameConstruction s
  | tick => exact ⟨_, rfl, tick_sameConstruction s⟩
  | keyPress k => exact ⟨_, rfl, keyPress_sameConstruction k s⟩
  | setKeys keys => exact ⟨_, rfl, rfl, rfl⟩
  | reset => exact ⟨_, rfl, h.symm, rfl⟩

/-- Settles O48: a step is one transaction, and every transaction keeps the construction. -/
theorem quirksNeverChange : Obligations.QuirksNeverChange := fun s t h hstep => by
  obtain ⟨u, hu, hc⟩ := perform_sameConstruction s.nextTransaction s.takeTransaction h
  obtain rfl := Host.Outcome.next.inj (hstep.symm.trans hu)
  exact hc

end Sys2Proof.Machine
end

section
/-! SUPPORT. The call stack is reached by 2NNN and 00EE only, and ST by FX18 only (10_state.md R21, R22): every other
instruction commutes with any change of the two. -/

namespace Sys2Proof.Machine

/-- The state with its stack, SP and ST changed. -/
def State.edit (k : Vector Word 16 → Vector Word 16) (n : Fin 17 → Fin 17) (b : Byte → Byte) (s : State) : State :=
  { s with stack := k s.stack, sp := n s.sp, st := b s.st }

/-- A change of the state makes no difference but the change itself. -/
def CommutesWith (f : State → State) (exe : State → Host.Outcome State Fault Refusal) : Prop :=
  ∀ s, exe (f s) = mapNext f (exe s)

section Operations

variable (k : Vector Word 16 → Vector Word 16) (n : Fin 17 → Fin 17) (b : Byte → Byte) (s : State)

theorem State.skipIf_edit (c : Bool) : (s.edit k n b).skipIf c = (s.skipIf c).edit k n b := by
  cases c <;> rfl

theorem State.setRegFlag_edit (x : Reg) (v : Byte) (f : Bool) :
    (s.edit k n b).setRegFlag x v f = (s.setRegFlag x v f).edit k n b := by
  unfold State.setRegFlag; rw [apply_ite (State.edit k n b)]; rfl

theorem State.bumpI_edit (x : Reg) : (s.edit k n b).bumpI x = (s.bumpI x).edit k n b := by
  unfold State.bumpI; rw [apply_ite (State.edit k n b)]; rfl

theorem storeFirst_edit (m : Nat) : storeFirst m (s.edit k n b) = (storeFirst m s).edit k n b := by
  induction m with
  | zero => rfl
  | succ m ih => rw [storeFirst, ih]; rfl

theorem loadFirst_edit (m : Nat) : loadFirst m (s.edit k n b) = (loadFirst m s).edit k n b := by
  induction m with
  | zero => rfl
  | succ m ih => rw [loadFirst, ih]; rfl

end Operations

section Instructions

variable (k : Vector Word 16 → Vector Word 16) (n : Fin 17 → Fin 17) (b : Byte → Byte)

theorem execSkp_commutes_edit (x : Reg) : CommutesWith (State.edit k n b) (execSkp x) := fun s => by
  unfold execSkp; rw [apply_ite (mapNext (State.edit k n b)), State.skipIf_edit]; rfl

theorem execSknp_commutes_edit (x : Reg) : CommutesWith (State.edit k n b) (execSknp x) := fun s => by
  unfold execSknp; rw [apply_ite (mapNext (State.edit k n b)), State.skipIf_edit]; rfl

theorem execStoreRegs_commutes_edit (x : Reg) : CommutesWith (State.edit k n b) (execStoreRegs x) := fun s => by
  rw [execStoreRegs, storeFirst_edit, State.bumpI_edit]; rfl

theorem execLoadRegs_commutes_edit (x : Reg) : CommutesWith (State.edit k n b) (execLoadRegs x) := fun s => by
  rw [execLoadRegs, loadFirst_edit, State.bumpI_edit]; rfl

/-- An instruction that is no call, no return and no FX18 commutes with any change of the stack, SP and ST. -/
theorem exec_commutes_edit (i : Instr) (hret : i ≠ .ret) (hcall : ∀ nnn, i ≠ .call nnn) (hst : ∀ x, i ≠ .ldSTVx x) :
    CommutesWith (State.edit k n b) (exec i) := by
  intro s
  cases i with
  | ret => exact absurd rfl hret
  | call nnn => exact absurd rfl (hcall nnn)
  | ldSTVx x => exact absurd rfl (hst x)
  | skp x => exact execSkp_commutes_edit k n b x s
  | sknp x => exact execSknp_commutes_edit k n b x s
  | storeRegs x => exact execStoreRegs_commutes_edit k n b x s
  | loadRegs x => exact execLoadRegs_commutes_edit k n b x s
  | seByte | sneByte | seReg | sneReg => exact congrArg Host.Outcome.next (s.skipIf_edit k n b _)
  | addReg | subReg | shr | subn | shl => exact congrArg Host.Outcome.next (s.setRegFlag_edit k n b _ _ _)
  | cls | jp | ldByte | addByte | ldReg | orReg | andReg | xorReg | ldI | jpV0 | rnd | drw | ldVxDT | ldVxK | ldDTVx
  | addI | ldF | ldB => rfl

/-- A return reads the stack and SP, but not ST. -/
theorem execRet_commutes_st : CommutesWith (State.edit id id b) execRet := fun s => by
  unfold execRet; rw [apply_dite (mapNext (State.edit id id b))]; rfl

/-- A call reads the stack and SP, but not ST. -/
theorem execCall_commutes_st (nnn : Addr) : CommutesWith (State.edit id id b) (execCall nnn) := fun s => by
  unfold execCall; rw [apply_dite (mapNext (State.edit id id b))]; rfl

end Instructions

theorem exec_commutes_st (b : Byte → Byte) (i : Instr) (hst : ∀ x, i ≠ .ldSTVx x) :
    CommutesWith (State.edit id id b) (exec i) := by
  by_cases hret : i = .ret
  · subst hret; exact execRet_commutes_st b
  by_cases hcall : ∃ nnn, i = .call nnn
  · obtain ⟨nnn, rfl⟩ := hcall; exact execCall_commutes_st b nnn
  · exact exec_commutes_edit id id b i hret (not_exists.mp hcall) hst

/-- Settles O49: every instruction but FX18 commutes with a change of ST, and FX18 replaces the changed value. -/
theorem soundTimerIsReadByNothing : Obligations.SoundTimerIsReadByNothing :=
  fun i s b => ⟨fun hst => exec_commutes_st (fun _ => b) i hst s, fun _ => rfl⟩

end Sys2Proof.Machine
end

section
/-! SUPPORT. Stack entries at or above SP are never read (10_state.md R29): a call writes its entry before SP passes it,
a return reads below SP, and nothing else reaches the stack. -/

namespace Sys2Proof.Machine

/-- From two states that differ in stale stack entries only, both answer with states that differ in them only. -/
def StaleBlind (exe : State → Host.Outcome State Fault Refusal) : Prop :=
  ∀ ⦃s s' t⦄, SameUpToStale s s' → exe s = .next t → ∃ t', exe s' = .next t' ∧ SameUpToStale t t'

theorem SameUpToStale.refl (s : State) : SameUpToStale s s := ⟨rfl, fun _ _ => rfl⟩

/-- States that differ in stale entries only are one state with two stacks. -/
theorem SameUpToStale.exists_stack {s s' : State} (h : SameUpToStale s s') :
    ∃ k : Vector Word 16, s' = { s with stack := k } ∧ ∀ j : Fin 16, j.val < s.sp.val → k[j] = s.stack[j] :=
  ⟨s'.stack, h⟩

/-- A change of the stack and SP only. -/
def State.withStack (k : Vector Word 16) (n : Fin 17) : State → State := State.edit (fun _ => k) (fun _ => n) id

/-- What commutes with every change of the stack and SP keeps both, and so keeps which entries are stale. -/
theorem StaleBlind.of_commutes {exe : State → Host.Outcome State Fault Refusal}
    (h : ∀ k n, CommutesWith (State.withStack k n) exe) : StaleBlind exe := by
  intro s s' t hs ht
  obtain ⟨k, rfl, hk⟩ := hs.exists_stack
  have hchanged : exe { s with stack := k } = .next (t.withStack k s.sp) := by
    have := h k s.sp s; rwa [ht] at this
  have hkept : t = t.withStack s.stack s.sp := by
    have := h s.stack s.sp s; rw [ht] at this; exact Host.Outcome.next.inj (ht.symm.trans this)
  refine ⟨_, hchanged, ?_⟩
  rw [hkept]
  exact ⟨rfl, hk⟩

theorem execRet_staleBlind : StaleBlind execRet := by
  intro s s' t hs ht
  obtain ⟨k, rfl, hk⟩ := hs.exists_stack
  unfold execRet at ht ⊢
  by_cases hsp : s.sp.val = 0
  · rw [dif_pos hsp] at ht
    cases ht
    exact ⟨_, dif_pos hsp, rfl, hk⟩
  · rw [dif_neg hsp] at ht
    cases ht
    have htop : k[s.sp.val - 1] = s.stack[s.sp.val - 1] := hk ⟨s.sp.val - 1, by omega⟩ (Nat.sub_one_lt hsp)
    refine ⟨_, dif_neg hsp, ?_, fun j hj => hk j ?_⟩
    · simp [State.pop, State.top, htop]
    · exact Nat.lt_of_lt_of_le hj (Nat.sub_le _ _)

theorem execCall_staleBlind (nnn : Addr) : StaleBlind (execCall nnn) := by
  intro s s' t hs ht
  obtain ⟨k, rfl, hk⟩ := hs.exists_stack
  unfold execCall at ht ⊢
  by_cases hsp : s.sp.val < 16
  · rw [dif_pos hsp] at ht
    cases ht
    refine ⟨_, dif_pos hsp, rfl, fun j hj => ?_⟩
    have hj' : j.val < s.sp.val + 1 := hj
    show (k.set s.sp.val s.pc hsp)[j.val] = (s.stack.set s.sp.val s.pc hsp)[j.val]
    rw [Vector.getElem_set, Vector.getElem_set]
    split
    · rfl
    · exact hk j (by omega)
  · rw [dif_neg hsp] at ht
    cases ht
    exact ⟨_, dif_neg hsp, rfl, hk⟩

theorem exec_staleBlind (i : Instr) : StaleBlind (exec i) := by
  by_cases hret : i = .ret
  · subst hret; exact execRet_staleBlind
  by_cases hcall : ∃ nnn, i = .call nnn
  · obtain ⟨nnn, rfl⟩ := hcall; exact execCall_staleBlind nnn
  by_cases hst : ∃ x, i = .ldSTVx x
  · obtain ⟨x, rfl⟩ := hst; exact .of_commutes fun _ _ _ => rfl
  · exact .of_commutes fun _ _ => exec_commutes_edit _ _ _ i hret (not_exists.mp hcall) (not_exists.mp hst)

/-! ## The transactions -/

theorem runInstruction_staleBlind : StaleBlind runInstruction := by
  intro s s' t hs ht
  obtain ⟨k, rfl, hk⟩ := hs.exists_stack
  have hfetch : ({ s with stack := k } : State).fetchWord = s.fetchWord := rfl
  unfold runInstruction at ht ⊢
  rw [hfetch]
  split at ht
  · exact exec_staleBlind _ (s := s.advancePc) ⟨rfl, hk⟩ ht
  · cases ht
    exact ⟨_, rfl, rfl, hk⟩

theorem engineStep_staleBlind : StaleBlind engineStep := by
  intro s s' t hs ht
  have hrun : s'.run = s.run := by rw [hs.1]
  unfold engineStep at ht ⊢
  rw [hrun]
  split at ht
  · exact runInstruction_staleBlind hs ht
  · cases ht; exact ⟨s', rfl, hs⟩
  · cases ht; exact ⟨s', rfl, hs⟩

theorem tick_withStack (k : Vector Word 16) (n : Fin 17) (s : State) :
    tick (s.withStack k n) = (tick s).withStack k n := by
  have hrun : (s.withStack k n).run = s.run := rfl
  unfold tick
  rw [hrun]
  split <;> rfl

theorem keyPress_withStack (key : Key) (k : Vector Word 16) (n : Fin 17) (s : State) :
    keyPress key (s.withStack k n) = (keyPress key s).withStack k n := by
  have hrun : (s.withStack k n).run = s.run := rfl
  unfold keyPress
  rw [hrun]
  split <;> rfl

/-- A reset forgets the stack altogether. -/
theorem resetBlock_staleBlind : StaleBlind (fun s => .next (resetBlock s)) := by
  intro s s' t hs ht
  obtain ⟨k, rfl, -⟩ := hs.exists_stack
  cases ht
  exact ⟨_, rfl, .refl _⟩

theorem perform_staleBlind (tr : Transaction) : StaleBlind (perform tr) := by
  cases tr with
  | step => exact engineStep_staleBlind
  | tick => exact .of_commutes fun k n s => congrArg Host.Outcome.next (tick_withStack k n s)
  | keyPress key => exact .of_commutes fun k n s => congrArg Host.Outcome.next (keyPress_withStack key k n s)
  | setKeys keys => exact .of_commutes fun _ _ _ => rfl
  | reset => exact resetBlock_staleBlind

/-- Settles O51: the two states have the same next transaction, and no transaction sees a stale entry. -/
theorem staleStackEntriesAreUnobservable : Obligations.StaleStackEntriesAreUnobservable := by
  intro s s' t hs ht
  obtain ⟨k, rfl, hk⟩ := hs.exists_stack
  exact perform_staleBlind s.nextTransaction (s := s.takeTransaction) ⟨rfl, hk⟩ ht

end Sys2Proof.Machine
end

section
/-! SUPPORT. Memory as the instructions meet it: addresses wrap at 4096, and a byte changes only where FX33 or FX55
stores (20_memory.md R32 to R34, R42; 44_index_memory.md R90, R91). -/

namespace Sys2Proof.Machine

/-! ## Bytes and words at wrapped addresses (20_memory.md R33, R34) -/

section Addresses

variable (s : State)

theorem State.readByte_congr {a b : Nat} (h : a % 4096 = b % 4096) : s.readByte a = s.readByte b := by
  rw [← s.readByte_mod a, h, s.readByte_mod]

theorem State.writeByte_mod (a : Nat) (b : Byte) : s.writeByte (a % 4096) b = s.writeByte a b := by
  simp only [State.writeByte, Config.memorySize, Nat.mod_mod]

theorem State.wordAt_toNat (a : Nat) :
    (s.wordAt a).toNat = (s.readByte a).toNat * 256 + (s.readByte (a + 1)).toNat :=
  wordOfBytes_toNat _ _

/-- The word fetched is the pair of bytes at any address that wraps to PC's cell. -/
theorem State.fetchWord_toNat_of_wraps {a : Nat} (h : a % 4096 = s.pc.toNat % 4096) :
    s.fetchWord.toNat = (s.readByte a).toNat * 256 + (s.readByte (a + 1)).toNat := by
  have hnext : (a + 1) % 4096 = (s.pc.toNat + 1) % 4096 := by omega
  rw [s.fetchWord_toNat, s.readByte_congr h, s.readByte_congr hnext]

end Addresses

/-- Settles O33, by the laws of one read and one write. -/
theorem addressesWrapAndReadsSeeWrites : Obligations.AddressesWrapAndReadsSeeWrites := by
  intro s a k b
  refine ⟨(s.readByte_mod a).symm, (s.writeByte_mod a b).symm, ?_, s.writeByte_readByte a k b⟩
  rw [s.wordAt_toNat, s.readByte_mod, s.readByte_mod]

/-! ## What FX55 and FX33 leave in memory (44_index_memory.md R90, R91) -/

@[simp] theorem hundreds_toNat (b : Byte) : (hundreds b).toNat = b.toNat / 100 := by
  simp only [hundreds, BitVec.toNat_ofNat]; omega

@[simp] theorem tens_toNat (b : Byte) : (tens b).toNat = b.toNat / 10 % 10 := by
  simp only [tens, BitVec.toNat_ofNat]; omega

section Stores

variable (s : State)

@[simp] theorem storeFirst_pc (n : Nat) : (storeFirst n s).pc = s.pc := by rw [storeFirst_only_mem]

/-- The n cells from I on are different ones, so each keeps its own register. -/
theorem storeFirst_readByte_indexed (n : Nat) (hn : n ≤ 16) (k : Reg) (hk : k.val < n) :
    (storeFirst n s).readByte (s.indexed k.val) = s.reg k := by
  have hoffset : (s.indexed k.val + 4096 - s.i.toNat % 4096) % 4096 = k.val := by
    simp only [State.indexed]; omega
  rw [storeFirst_readByte s n hn, hoffset, if_pos hk, Fin.ofNat_val_eq_self]

theorem storeFirst_readByte_elsewhere (n : Nat) (hn : n ≤ 16) (a : Nat)
    (h : ∀ k < n, a % 4096 ≠ s.indexed k % 4096) : (storeFirst n s).readByte a = s.readByte a := by
  rw [storeFirst_readByte s n hn, if_neg]
  intro hoffset
  refine h _ hoffset ?_
  simp only [State.indexed]; omega

/-- FX33's state: the digits stored in ascending order. -/
def State.storeDigits (b : Byte) : State :=
  ((s.writeByte (s.indexed 0) (hundreds b)).writeByte (s.indexed 1) (tens b)).writeByte (s.indexed 2) (ones b)

theorem State.storeDigits_readByte (b : Byte) (a : Nat) :
    (s.storeDigits b).readByte a =
      if a % 4096 = s.indexed 2 % 4096 then ones b
      else if a % 4096 = s.indexed 1 % 4096 then tens b
      else if a % 4096 = s.indexed 0 % 4096 then hundreds b
      else s.readByte a := by
  simp only [State.storeDigits, State.writeByte_readByte]

theorem exec_storeRegs (x : Reg) : exec (.storeRegs x) s = .next ((storeFirst (x.val + 1) s).bumpI x) := rfl

theorem exec_ldB (x : Reg) : exec (.ldB x) s = .next (s.storeDigits (s.reg x)) := rfl

end Stores

/-! ## A word stored at PC (20_memory.md R42; 70_reset_and_hazards.md R124) -/

/-- Two neighbouring registers of an FX55 that land on PC's cell are the word there. -/
theorem storeRegs_fetchWord (s : State) (x k k' : Reg) (hk : k'.val = k.val + 1) (hx : k' ≤ x)
    (hpc : s.indexed k.val % 4096 = s.pc.toNat % 4096) :
    ((storeFirst (x.val + 1) s).bumpI x).fetchWord.toNat = (s.reg k).toNat * 256 + (s.reg k').toNat := by
  have hx' : k'.val ≤ x.val := hx
  have hpc' : s.indexed k.val % 4096 = ((storeFirst (x.val + 1) s).bumpI x).pc.toNat % 4096 := by
    rw [State.bumpI_pc, storeFirst_pc, hpc]
  have hnext : s.indexed k.val + 1 = s.indexed k'.val := by rw [hk]; rfl
  rw [State.fetchWord_toNat_of_wraps _ hpc', hnext, State.bumpI_readByte, State.bumpI_readByte,
    storeFirst_readByte_indexed s _ x.isLt k (by omega), storeFirst_readByte_indexed s _ x.isLt k' (by omega)]

/-- The hundreds and tens of an FX33 that land on PC's cell are the word there. -/
theorem storeDigits_fetchWord (s : State) (b : Byte) (hpc : s.indexed 0 % 4096 = s.pc.toNat % 4096) :
    (s.storeDigits b).fetchWord.toNat = b.toNat / 100 * 256 + b.toNat / 10 % 10 := by
  have h02 : s.indexed 0 % 4096 ≠ s.indexed 2 % 4096 := by simp only [State.indexed]; omega
  have h01 : s.indexed 0 % 4096 ≠ s.indexed 1 % 4096 := by simp only [State.indexed]; omega
  have h12 : s.indexed 1 % 4096 ≠ s.indexed 2 % 4096 := by simp only [State.indexed]; omega
  have hfirst : (s.storeDigits b).readByte (s.indexed 0) = hundreds b := by
    rw [s.storeDigits_readByte, if_neg h02, if_neg h01, if_pos rfl]
  have hsecond : (s.storeDigits b).readByte (s.indexed 0 + 1) = tens b := by
    rw [s.storeDigits_readByte]; exact (if_neg h12).trans (if_pos rfl)
  rw [(s.storeDigits b).fetchWord_toNat_of_wraps hpc, hfirst, hsecond, hundreds_toNat, tens_toNat]

/-- Settles O40: neither store moves PC, and the cells at PC read as the bytes stored there. -/
theorem storedWordIsFetchedNext : Obligations.StoredWordIsFetchedNext := by
  constructor
  · intro s x t ht k k' hk hx hpc
    cases ht
    exact storeRegs_fetchWord s x k k' hk hx hpc
  · intro s x t ht hpc
    cases ht
    exact storeDigits_fetchWord s (s.reg x) hpc

/-! ## The writers of memory (20_memory.md R32) -/

/-- Every byte outside the cells of the listed addresses reads the same in both states. -/
def ChangesOnlyAt (addresses : List Nat) (s t : State) : Prop :=
  ∀ a, (∀ b ∈ addresses, a % 4096 ≠ b % 4096) → t.readByte a = s.readByte a

theorem ChangesOnlyAt.of_mem_eq {addresses : List Nat} {s t : State} (h : t.mem = s.mem) :
    ChangesOnlyAt addresses s t := fun a _ => congrArg (Memory.read · (a % Config.memorySize)) h

theorem storeRegs_changesOnlyAt (s : State) (x : Reg) :
    ChangesOnlyAt (storedAddresses (.storeRegs x) s) s ((storeFirst (x.val + 1) s).bumpI x) := by
  intro a ha
  rw [State.bumpI_readByte]
  refine storeFirst_readByte_elsewhere s _ x.isLt a fun k hk => ha _ ?_
  exact List.mem_map_of_mem (List.mem_range.mpr hk)

theorem ldB_changesOnlyAt (s : State) (x : Reg) :
    ChangesOnlyAt (storedAddresses (.ldB x) s) s (s.storeDigits (s.reg x)) := by
  intro a ha
  simp only [storedAddresses, List.forall_mem_cons] at ha
  obtain ⟨h0, h1, h2, -⟩ := ha
  rw [s.storeDigits_readByte, if_neg h2, if_neg h1, if_neg h0]

theorem loadFirst_mem (n : Nat) (s : State) : (loadFirst n s).mem = s.mem := by rw [loadFirst_only_v]

/-- Every instruction answers with a next state that differs in memory only where the instruction stores. -/
theorem exec_changesOnlyAt (i : Instr) (s : State) :
    ∃ t, exec i s = .next t ∧ ChangesOnlyAt (storedAddresses i s) s t := by
  cases i with
  | ldB x => exact ⟨_, exec_ldB s x, ldB_changesOnlyAt s x⟩
  | storeRegs x => exact ⟨_, exec_storeRegs s x, storeRegs_changesOnlyAt s x⟩
  | loadRegs x => exact ⟨_, rfl, .of_mem_eq ((State.bumpI_mem _ x).trans (loadFirst_mem _ s))⟩
  | ret | call => simp only [exec, execRet, execCall]; split <;> exact ⟨_, rfl, .of_mem_eq rfl⟩
  | skp | sknp =>
    simp only [exec, execSkp, execSknp]; split
    · exact ⟨_, rfl, .of_mem_eq rfl⟩
    · exact ⟨_, rfl, .of_mem_eq (s.skipIf_mem _)⟩
  | seByte | sneByte | seReg | sneReg => exact ⟨_, rfl, .of_mem_eq (s.skipIf_mem _)⟩
  | addReg | subReg | shr | subn | shl => exact ⟨_, rfl, .of_mem_eq (s.setRegFlag_mem _ _ _)⟩
  | cls | jp | ldByte | addByte | ldReg | orReg | andReg | xorReg | ldI | jpV0 | rnd | drw | ldVxDT | ldVxK | ldDTVx
  | ldSTVx | addI | ldF => exact ⟨_, rfl, .of_mem_eq rfl⟩

/-- Settles O45: FX33 and FX55 change memory at their own addresses only, and no other instruction changes it. -/
theorem memoryHasItsWriters : Obligations.MemoryHasItsWriters := by
  intro i s t ht
  obtain ⟨u, hu, hchanges⟩ := exec_changesOnlyAt i s
  obtain rfl := Host.Outcome.next.inj (ht.symm.trans hu)
  exact hchanges

end Sys2Proof.Machine
end

section
/-! SUPPORT. The decoder and the encoder are inverse to each other, the decoder follows the opcode map, and the words it
rejects are those of the table of families (30_encoding.md sections 2 to 5). -/

namespace Sys2Proof

/-! ## A word put together from its own fields (30_encoding.md R45, R47) -/

/-- Settles O3: the fields are quotients and remainders of the word. -/
theorem fieldsSplitTheWord : Obligations.FieldsSplitTheWord := by
  intro w
  rw [fieldOp_toNat, fieldNNN_toNat, fieldNN_toNat, fieldN_toNat, fieldX_val, fieldY_val]
  omega

@[simp] theorem topNibble_fieldNNN (w : Word) : topNibble (fieldNNN w) = fieldX w := by
  apply Fin.ext; rw [topNibble_val, fieldNNN_toNat, fieldX_val]; omega

section Words
variable {w : Word} {op n : BitVec 4} {nn : Byte} (hop : fieldOp w = op)
include hop

theorem wordNNN_fields : wordNNN op (fieldNNN w) = w := by
  obtain ⟨hw, -, -⟩ := fieldsSplitTheWord w
  apply BitVec.eq_of_toNat_eq
  rw [wordNNN_toNat, ← hop, ← hw]

theorem wordXNN_fields (hnn : fieldNN w = nn) : wordXNN op (fieldX w) nn = w := by
  obtain ⟨hw, hnnn, -⟩ := fieldsSplitTheWord w
  apply BitVec.eq_of_toNat_eq
  rw [wordXNN_toNat, ← hop, ← hnn]; omega

theorem wordXYN_fields (hn : fieldN w = n) : wordXYN op (fieldX w) (fieldY w) n = w := by
  obtain ⟨hw, hnnn, hnn⟩ := fieldsSplitTheWord w
  apply BitVec.eq_of_toNat_eq
  rw [wordXYN_toNat, ← hop, ← hn]; omega

end Words

/-! ## Decoding the word of an instruction (30_encoding.md R49) -/

theorem decodeWord_encode (i : Instr) (hwf : i.wf = true) : decodeWord (encode i) = .ok i := by
  cases i with
  | cls | ret => decide
  | jpV0 x nnn =>
    have hx : x = topNibble nnn := by simpa [Instr.wf] using hwf
    simp [encode, decodeWord, hx]
  | jp | call | ldI | seByte | sneByte | ldByte | addByte | rnd | seReg | sneReg | drw => simp [encode, decodeWord]
  | ldReg | orReg | andReg | xorReg | addReg | subReg | shr | subn | shl => simp [encode, decodeWord, decodeAlu]
  | skp | sknp => simp [encode, decodeWord, decodeKeySkip]
  | ldVxDT | ldVxK | ldDTVx | ldSTVx | addI | ldF | ldB | storeRegs | loadRegs => simp [encode, decodeWord, decodeMisc]

/-- The bytes of a word decode as the word does, and the bytes after it are left. -/
theorem decode_bytesOfWord (w : Word) (rest : List Byte) :
    decode ([w.extractLsb' 8 8, w.extractLsb' 0 8] ++ rest) = (decodeWord w).map (·, rest) := by
  simp only [decode, List.cons_append, wordOfBytes_extract]
  cases decodeWord w <;> rfl

/-- Settles O6: each instruction's word decodes to it by its fields, and so do the word's two bytes. -/
theorem decodeOfEncodeIsIdentity : Obligations.DecodeOfEncodeIsIdentity := by
  intro i hwf
  have hword := decodeWord_encode i hwf
  refine ⟨hword, fun rest => ?_⟩
  rw [encodeBytes, decode_bytesOfWord, hword]
  rfl

/-! ## What the decoder answers (30_encoding.md R48, R50) -/

/-- The word is the encoding of the instruction. -/
def Encodes (i : Instr) (w : Word) : Prop := i.wf = true ∧ encode i = w

/-- The unknown words, family by family (30_encoding.md section 5). -/
def UnknownWord (w : Word) : Prop :=
  (fieldOp w = 0x0 ∧ w ≠ 0x00E0 ∧ w ≠ 0x00EE) ∨
  ((fieldOp w = 0x5 ∨ fieldOp w = 0x9) ∧ fieldN w ≠ 0) ∨
  (fieldOp w = 0x8 ∧ fieldN w ∈ [0x8#4, 0x9#4, 0xA#4, 0xB#4, 0xC#4, 0xD#4, 0xF#4]) ∨
  (fieldOp w = 0xE ∧ fieldNN w ∉ [0x9E#8, 0xA1#8]) ∨
  (fieldOp w = 0xF ∧ fieldNN w ∉ [0x07#8, 0x0A#8, 0x15#8, 0x18#8, 0x1E#8, 0x29#8, 0x33#8, 0x55#8, 0x65#8])

/-- The two answers the decoder may give to a word. -/
inductive Answers (w : Word) : Except Reject Instr → Prop
  | known {i : Instr} (h : Encodes i w) : Answers w (.ok i)
  | unknown (h : UnknownWord w) : Answers w (.error .unknownOpcode)

section Families
variable {w : Word}

theorem decodeSystem_answers (hop : fieldOp w = 0x0) : Answers w (decodeSystem w) := by
  fun_cases decodeSystem w with
  | case1 h | case2 _ h => exact .known ⟨rfl, h.symm⟩
  | case3 h h' => exact .unknown (.inl ⟨hop, h, h'⟩)

theorem decodeAlu_answers (hop : fieldOp w = 0x8) : Answers w (decodeAlu (fieldX w) (fieldY w) (fieldN w)) := by
  fun_cases decodeAlu with
  | case10 =>
    have hn : fieldN w ∈ [0x8#4, 0x9#4, 0xA#4, 0xB#4, 0xC#4, 0xD#4, 0xF#4] := by
      generalize fieldN w = n at *
      decide +revert
    exact .unknown (.inr (.inr (.inl ⟨hop, hn⟩)))
  | _ => exact .known ⟨rfl, wordXYN_fields hop ‹_›⟩

theorem decodeKeySkip_answers (hop : fieldOp w = 0xE) : Answers w (decodeKeySkip (fieldX w) (fieldNN w)) := by
  fun_cases decodeKeySkip with
  | case1 | case2 => exact .known ⟨rfl, wordXNN_fields hop ‹_›⟩
  | case3 => exact .unknown (by simp_all [UnknownWord])

theorem decodeMisc_answers (hop : fieldOp w = 0xF) : Answers w (decodeMisc (fieldX w) (fieldNN w)) := by
  fun_cases decodeMisc with
  | case10 => exact .unknown (by simp_all [UnknownWord])
  | _ => exact .known ⟨rfl, wordXNN_fields hop ‹_›⟩

end Families

/-- Branch by branch: the decoder keeps every field its row leaves open, and rejects in the listed families only. -/
theorem decodeWord_answers (w : Word) : Answers w (decodeWord w) := by
  fun_cases decodeWord w with
  | case1 hop => exact decodeSystem_answers hop
  | case2 | case3 | case13 => exact .known ⟨rfl, wordNNN_fields ‹_›⟩
  | case14 => exact .known ⟨by simp [Instr.wf], wordNNN_fields ‹_›⟩
  | case4 | case5 | case8 | case9 | case15 => exact .known ⟨rfl, wordXNN_fields ‹_› rfl⟩
  | case6 | case11 => exact .known ⟨rfl, wordXYN_fields ‹_› ‹_›⟩
  | case7 | case12 => exact .unknown (by simp_all [UnknownWord])
  | case16 => exact .known ⟨rfl, wordXYN_fields ‹_› rfl⟩
  | case10 => exact decodeAlu_answers ‹_›
  | case17 => exact decodeKeySkip_answers ‹_›
  | case18 =>
    have hop : fieldOp w = 0xF := by bv_omega
    exact decodeMisc_answers hop

theorem decodeWord_eq_ok_iff {w : Word} {i : Instr} : decodeWord w = .ok i ↔ Encodes i w := by
  constructor
  · intro h
    have hans := decodeWord_answers w
    rw [h] at hans
    cases hans with
    | known henc => exact henc
  · rintro ⟨hwf, rfl⟩
    exact decodeWord_encode i hwf

/-- Settles O7: an instruction the decoder answers with encodes to the word, in every branch. -/
theorem encodeOfDecodeIsIdentity : Obligations.EncodeOfDecodeIsIdentity := fun _ _ => decodeWord_eq_ok_iff.mp

/-! ## The unknown words (30_encoding.md R50) -/

theorem not_unknownWord_encode (i : Instr) : ¬ UnknownWord (encode i) := by
  cases i with
  | cls | ret => unfold UnknownWord; decide
  | jp | call | ldI | jpV0 | seByte | sneByte | ldByte | addByte | rnd | seReg | sneReg | drw | ldReg | orReg | andReg
  | xorReg | addReg | subReg | shr | subn | shl | skp | sknp | ldVxDT | ldVxK | ldDTVx | ldSTVx | addI | ldF | ldB
  | storeRegs | loadRegs => simp [UnknownWord, encode]

/-- Settles O5: an instruction's word is in none of the listed families, so a listed word has no instruction. -/
theorem unknownWordsByFamily : Obligations.UnknownWordsByFamily := by
  intro w
  change (decodeWord w = .error .unknownOpcode ↔ UnknownWord w) ∧ decodeWord w ≠ .error .truncated
  have hans := decodeWord_answers w
  generalize decodeWord w = answer at *
  cases hans with
  | known henc =>
    obtain ⟨-, rfl⟩ := henc
    simp [not_unknownWord_encode]
  | unknown h => simp [h]

/-! ## The opcode map (30_encoding.md R49) -/

section Masks
variable {w : Word} {op n : BitVec 4} {nn : Byte}

/-! A row's match is the word that has the row's fixed digits and 0 elsewhere. -/

theorem fieldOp_of_maskF000 (h : w &&& 0xF000 = wordNNN op 0) : fieldOp w = op := by
  have h' := congrArg BitVec.toNat ((and_maskF000 w).symm.trans h)
  simp only [toNat_append_add, wordNNN_toNat] at h'
  bv_omega

theorem wordXYN_of_maskF00F (h : w &&& 0xF00F = wordXYN op 0 0 n) : wordXYN op (fieldX w) (fieldY w) n = w := by
  have h' := congrArg BitVec.toNat ((and_maskF00F w).symm.trans h)
  simp only [toNat_append_add, wordXYN_toNat] at h'
  apply wordXYN_fields <;> bv_omega

theorem wordXNN_of_maskF0FF (h : w &&& 0xF0FF = wordXNN op 0 nn) : wordXNN op (fieldX w) nn = w := by
  have h' := congrArg BitVec.toNat ((and_maskF0FF w).symm.trans h)
  simp only [toNat_append_add, wordXNN_toNat] at h'
  apply wordXNN_fields <;> bv_omega

end Masks

/-- The instruction's operands are the fields of the word that its row uses (30_encoding.md R49, "fields used"). -/
def OperandsFrom (w : Word) : Instr → Prop
  | .cls | .ret => True
  | .jp nnn | .call nnn | .ldI nnn => nnn = fieldNNN w
  | .jpV0 x nnn => x = fieldX w ∧ nnn = fieldNNN w
  | .seByte x nn | .sneByte x nn | .ldByte x nn | .addByte x nn | .rnd x nn => x = fieldX w ∧ nn = fieldNN w
  | .seReg x y | .ldReg x y | .orReg x y | .andReg x y | .xorReg x y | .addReg x y | .subReg x y | .shr x y
  | .subn x y | .shl x y | .sneReg x y => x = fieldX w ∧ y = fieldY w
  | .drw x y n => x = fieldX w ∧ y = fieldY w ∧ n = fieldN w
  | .skp x | .sknp x | .ldVxDT x | .ldVxK x | .ldDTVx x | .ldSTVx x | .addI x | .ldF x | .ldB x | .storeRegs x
  | .loadRegs x => x = fieldX w

theorem operandsFrom_of_mem_opcodeRows (w : Word) : ∀ f ∈ opcodeRows, OperandsFrom w (f w) := by
  simp [opcodeRows, OperandsFrom]

/-- The rows of the opcode map are in the order of the constructors. -/
theorem opcodeRows_ctorIdx {w : Word} {i : Instr} (h : OperandsFrom w i) :
    (opcodeRows[i.ctorIdx]?).map (· w) = some i := by
  cases i with
  | cls | ret => rfl
  | jp | call | ldI | skp | sknp | ldVxDT | ldVxK | ldDTVx | ldSTVx | addI | ldF | ldB | storeRegs | loadRegs =>
    cases h; rfl
  | jpV0 | seByte | sneByte | ldByte | addByte | rnd | seReg | ldReg | orReg | andReg | xorReg | addReg | subReg | shr
  | subn | shl | sneReg => obtain ⟨rfl, rfl⟩ := h; rfl
  | drw => obtain ⟨rfl, rfl, rfl⟩ := h; rfl

theorem operandsFrom_encode (i : Instr) (hwf : i.wf = true) : OperandsFrom (encode i) i := by
  cases i with
  | cls | ret => trivial
  | jpV0 => simpa [OperandsFrom, encode, Instr.wf] using hwf
  | jp | call | ldI | seByte | sneByte | ldByte | addByte | rnd | seReg | ldReg | orReg | andReg | xorReg | addReg
  | subReg | shr | subn | shl | sneReg | drw | skp | sknp | ldVxDT | ldVxK | ldDTVx | ldSTVx | addI | ldF | ldB
  | storeRegs | loadRegs => simp [OperandsFrom, encode]

open Laws.OpcodeMap in
/-- The laws made per constructor, as one statement about every instruction. -/
theorem rowOf_selects_encode (i : Instr) : (rowOf i).selects (encode i) = true :=
  i.rec cls ret jp call seByte sneByte seReg ldByte addByte ldReg orReg andReg xorReg addReg subReg shr subn shl sneReg
    ldI jpV0 rnd drw skp sknp ldVxDT ldVxK ldDTVx ldSTVx addI ldF ldB storeRegs loadRegs

/-- The mask fixes the digits that are no operand, so operands read from the word make the instruction its encoding. -/
theorem encodes_of_selects {w : Word} {i : Instr} (hops : OperandsFrom w i) (hsel : (rowOf i).selects w = true) :
    Encodes i w := by
  have hmask : w &&& (rowOf i).mask = (rowOf i).value := beq_iff_eq.mp hsel
  cases i with
  | cls | ret => exact ⟨rfl, hmask.symm.trans (and_maskFFFF w)⟩
  | jp | call | ldI =>
    subst hops
    exact ⟨rfl, wordNNN_fields (fieldOp_of_maskF000 hmask)⟩
  | jpV0 =>
    obtain ⟨rfl, rfl⟩ := hops
    exact ⟨by simp [Instr.wf], wordNNN_fields (fieldOp_of_maskF000 hmask)⟩
  | seByte | sneByte | ldByte | addByte | rnd =>
    obtain ⟨rfl, rfl⟩ := hops
    exact ⟨rfl, wordXNN_fields (fieldOp_of_maskF000 hmask) rfl⟩
  | seReg | ldReg | orReg | andReg | xorReg | addReg | subReg | shr | subn | shl | sneReg =>
    obtain ⟨rfl, rfl⟩ := hops
    exact ⟨rfl, wordXYN_of_maskF00F hmask⟩
  | drw =>
    obtain ⟨rfl, rfl, rfl⟩ := hops
    exact ⟨rfl, wordXYN_fields (fieldOp_of_maskF000 hmask) rfl⟩
  | skp | sknp | ldVxDT | ldVxK | ldDTVx | ldSTVx | addI | ldF | ldB | storeRegs | loadRegs =>
    subst hops
    exact ⟨rfl, wordXNN_of_maskF0FF hmask⟩

/-! ## Selecting a row is decoding to it (30_encoding.md R48, R49) -/

theorem selects_iff_decodeWord {w : Word} {f : Word → Instr} (hf : f ∈ opcodeRows) :
    (rowOf (f w)).selects w = true ↔ decodeWord w = .ok (f w) := by
  rw [decodeWord_eq_ok_iff]
  constructor
  · exact encodes_of_selects (operandsFrom_of_mem_opcodeRows w f hf)
  · rintro ⟨-, henc⟩
    simpa [henc] using rowOf_selects_encode (f w)

theorem exists_row_of_decodeWord {w : Word} {i : Instr} (h : decodeWord w = .ok i) : ∃ f ∈ opcodeRows, f w = i := by
  obtain ⟨hwf, rfl⟩ := decodeWord_eq_ok_iff.mp h
  obtain ⟨f, hf, hfw⟩ := Option.map_eq_some_iff.mp (opcodeRows_ctorIdx (operandsFrom_encode i hwf))
  exact ⟨f, List.mem_of_getElem? hf, hfw⟩

theorem decodeWord_error_iff_selects_none (w : Word) :
    (∃ e, decodeWord w = .error e) ↔ ∀ f ∈ opcodeRows, (rowOf (f w)).selects w = false := by
  constructor
  · rintro ⟨e, he⟩ f hf
    rw [Bool.eq_false_iff, Ne, selects_iff_decodeWord hf, he]
    exact nofun
  · intro hnone
    cases hdec : decodeWord w with
    | error e => exact ⟨e, rfl⟩
    | ok i =>
      obtain ⟨f, hf, rfl⟩ := exists_row_of_decodeWord hdec
      exact absurd ((selects_iff_decodeWord hf).mpr hdec) (by simp [hnone f hf])

/-- Settles O4: a word's row is that of the one instruction it decodes to. -/
theorem dispatchFollowsTheOpcodeMap : Obligations.DispatchFollowsTheOpcodeMap := by
  refine ⟨rfl, by decide, fun w f hf => selects_iff_decodeWord hf, decodeWord_error_iff_selects_none, ?_⟩
  intro w f hf g hg hselF hselG
  rw [selects_iff_decodeWord hf] at hselF
  rw [selects_iff_decodeWord hg, hselF] at hselG
  exact congrArg rowOf (Except.ok.inj hselG)

/-! ## Words written out bit by bit -/

/-- Settles O8, by decoding each of the nine words. -/
theorem sampleWordsDecode : Obligations.SampleWordsDecode := by
  unfold Obligations.SampleWordsDecode
  decide

end Sys2Proof
end

section
/-! SUPPORT. The cycle of the block (40_cycle.md R53 to R56): what a Step does in RUNNING, what ends AWAIT_KEY and HALTED,
and the call and return that R54's PC advance makes a pair. -/

namespace Sys2Proof.Machine

/-! ## A Step of a running block (40_cycle.md R53) -/

theorem State.advancePc_pc_toNat (s : State) : s.advancePc.pc.toNat = (s.pc.toNat + 2) % 65536 :=
  BitVec.toNat_add s.pc 2

/-- The address a fault records is the one the Step fetched from: the advance and the record's PC - 2 cancel. -/
theorem State.advancePc_raiseFault (s : State) (code : FaultCode) (w : Word) :
    s.advancePc.raiseFault code w = { s.advancePc with run := .halted code s.pc w } := by
  have hfetched : s.advancePc.pc - 2 = s.pc := BitVec.add_sub_cancel s.pc 2
  rw [State.raiseFault, hfetched]
  rfl

/-- Settles O9: the state executed from is the one with PC advanced and the Step off its schedule. -/
theorem stepFetchesAdvancesAndExecutes : Obligations.StepFetchesAdvancesAndExecutes := by
  intro s hrun hnext
  constructor
  · rw [s.readByte_mod, s.readByte_mod, s.fetchWord_toNat]
  · refine ⟨s.takeTransaction.advancePc, rfl, s.takeTransaction.advancePc_pc_toNat, fun i hdec => ?_, fun e hdec => ?_⟩
    · exact step_of_decode s i hrun hnext hdec
    · rw [step_of_reject s e hrun hnext hdec, State.advancePc_raiseFault, State.takeTransaction_pc]

/-! ## The end of a wait (40_cycle.md R55) -/

/-- A waiting block waits on through every transaction but a key press and a reset. -/
theorem perform_keeps_awaitKey {s : State} {r : Reg} (hwait : s.run = .awaitKey r) (tr : Transaction)
    (hkey : ∀ k, tr ≠ .keyPress k) (hreset : tr ≠ .reset) : ∃ t, perform tr s = .next t ∧ t.run = .awaitKey r := by
  cases tr with
  | step => exact ⟨s, engineStep_awaitKey s r hwait, hwait⟩
  | tick =>
    have hlive : ¬ Halted s := by rintro ⟨code, p, w, hhalt⟩; cases hwait.symm.trans hhalt
    refine ⟨_, rfl, ?_⟩
    rw [tick_live s hlive]
    exact hwait
  | keyPress k => exact absurd rfl (hkey k)
  | setKeys keys => exact ⟨_, rfl, hwait⟩
  | reset => exact absurd rfl hreset

/-- Settles O13: a Step is idle in a wait, and a transaction that is neither a key press nor a reset keeps the wait. -/
theorem waitEndsOnlyByKeyPressOrReset : Obligations.WaitEndsOnlyByKeyPressOrReset := by
  intro s r hwait
  constructor
  · intro hnext
    rw [step_eq s _ hnext]
    exact engineStep_awaitKey s.takeTransaction r hwait
  · intro t hstep hended
    by_contra hother
    obtain ⟨hkey, hreset⟩ := not_or.mp hother
    obtain ⟨u, hu, hwaits⟩ :=
      perform_keeps_awaitKey (s := s.takeTransaction) hwait s.nextTransaction (not_exists.mp hkey) hreset
    obtain rfl := Host.Outcome.next.inj (hstep.symm.trans hu)
    exact hended hwaits

/-! ## The end of a halt (40_cycle.md R56; 60_exceptions.md R106) -/

theorem SameBlock.refl (s : State) : SameBlock s s := by simp [SameBlock]

/-- A halted block stays as it is, and emits nothing, through every transaction but a reset. -/
theorem perform_keeps_halted {s : State} (hhalt : Halted s) (tr : Transaction) (hreset : tr ≠ .reset) :
    ∃ t, perform tr s = .next t ∧ SameBlock s t ∧ t.out = s.out := by
  cases tr with
  | step => exact ⟨s, engineStep_halted s hhalt, .refl s, rfl⟩
  | tick => exact ⟨s, congrArg Host.Outcome.next (tick_halted s hhalt), .refl s, rfl⟩
  | keyPress k =>
    have hnowait : ∀ r, s.run ≠ .awaitKey r := by
      obtain ⟨code, p, w, hrun⟩ := hhalt
      rw [hrun]
      exact fun r => nofun
    exact ⟨s, congrArg Host.Outcome.next (keyPress_dropped s k hnowait), .refl s, rfl⟩
  | setKeys keys => exact ⟨_, rfl, .refl s, rfl⟩
  | reset => exact absurd rfl hreset

theorem resetRun_of_accepted {c : Construction} (h : c.image.length ≤ 3584) : resetRun c = .running :=
  if_pos (decide_eq_true h)

/-- Settles O14: the transactions other than reset find the block halted, and a reset takes RUN from the loader. -/
theorem haltedUntilReset : Obligations.HaltedUntilReset := by
  intro s hhalt
  constructor
  · intro hreset
    exact perform_keeps_halted (s := s.takeTransaction) hhalt s.nextTransaction hreset
  · intro hnext hsize
    exact ⟨_, step_eq s _ hnext, resetRun_of_accepted hsize⟩

/-! ## A call and its return (40_cycle.md R54; 42_control_flow.md R65, R67) -/

theorem exec_call_of_room (s : State) (nnn : Addr) (h : s.sp.val < 16) :
    exec (.call nnn) s = .next ((s.push h).setPc (nnn.setWidth 16)) := dif_pos h

theorem exec_ret_of_nonempty (s : State) (h : s.sp.val ≠ 0) : exec .ret s = .next (s.pop h) := dif_neg h

/-- A pop from the stack and SP a push left gives back the PC pushed and the SP before it. -/
theorem State.pop_of_pushed {s u : State} (h : s.sp.val < 16) (hsp : u.sp = (s.push h).sp)
    (hstack : u.stack = (s.push h).stack) (hne : u.sp.val ≠ 0) :
    (u.pop hne).pc = s.pc ∧ (u.pop hne).sp = s.sp := by
  constructor
  · simp [State.pop, State.top, State.push, hsp, hstack]
  · simp [State.pop, State.push, hsp]

/-- Settles O29: the return pops the entry that the call pushed. -/
theorem returnUndoesCall : Obligations.ReturnUndoesCall := by
  intro s nnn t hroom hcall u hsp hstack
  obtain rfl := Host.Outcome.next.inj ((exec_call_of_room s nnn hroom).symm.trans hcall)
  have hne : u.sp.val ≠ 0 := by rw [hsp]; exact Nat.succ_ne_zero _
  obtain ⟨hpc, hsp'⟩ := State.pop_of_pushed hroom hsp hstack hne
  exact ⟨_, exec_ret_of_nonempty u hne, hpc, hsp', rfl⟩

end Sys2Proof.Machine
end

section
/-! SUPPORT. The display instructions (41_display.md R59 to R64): what 00E0 and DXYN leave in each cell, in VF and in
the requests, and the pixels of a sprite as the bits that the laws of drawing speak of. -/

namespace Sys2Proof.Machine

/-! ## 00E0 (41_display.md R59) -/

theorem clearFrame_unlit (row : Fin 32) (col : Fin 64) : clearFrame[row][col] = false := by
  simp [clearFrame]

theorem exec_cls (s : State) :
    exec .cls s = .next { s with fb := clearFrame, out := s.out ++ [.clear, .present clearFrame] } := by
  simp [exec, execCls, State.setFb, State.emit]

/-- Settles O41: the frame left is the cleared one, and it is the one presented. -/
theorem clearScreen : Obligations.ClearScreen :=
  ⟨decodeWord_encode .cls rfl, fun s => ⟨_, exec_cls s, clearFrame_unlit, rfl⟩⟩

/-! ## The cells of the grid -/

section Grid

variable {d e : Drawing} {bits : Nat → Nat → Bool} (h : Toggled d e bits)
include h

theorem Toggled.cell (row : Fin 32) (col : Fin 64) : e.fb[row][col] = Bool.xor d.fb[row][col] (bits row col) := by
  rw [Frame.at_fin, Frame.at_fin]
  exact h.cells row col (by omega) (by omega)

/-- A bit outside the grid is not drawn, so only the grid's cells can make a collision (41_display.md R63). -/
theorem Toggled.hit_iff :
    e.hit = true ↔ d.hit = true ∨ ∃ (row : Fin 32) (col : Fin 64), d.fb[row][col] = true ∧ bits row col = true := by
  simp only [h.hits, Frame.at_fin]
  refine or_congr_right ⟨?_, ?_⟩
  · rintro ⟨r, c, hr, hc, hlit, hbit⟩
    exact ⟨⟨r, by omega⟩, ⟨c, by omega⟩, hlit, hbit⟩
  · rintro ⟨row, col, hlit, hbit⟩
    exact ⟨row, col, by omega, by omega, hlit, hbit⟩

end Grid

/-! ## A sprite's pixels (41_display.md R61, R62) -/

/-- On the grid, the bits that a draw combines with the cells are the sprite's pixels. -/
theorem spriteBit_spriteRows (s : State) (row0 col0 n : Nat) (row : Fin 32) (col : Fin 64) :
    spriteBit col0 row0 (s.spriteRows n) row col = spritePixel s row0 col0 n row col := by
  rw [spriteBit, spritePixel, State.spriteRows, List.length_map, List.length_range]
  by_cases h : row0 ≤ row.val ∧ row.val < row0 + n ∧ col0 ≤ col.val ∧ col.val < col0 + 8
  · have hrow : row.val - row0 < n := by omega
    simp [h, hrow, State.indexed]
  · simp [h]

/-! ## DXYN (41_display.md R60 to R64) -/

/-- The draw that DXYN makes: its sprite at the origin that `V[x]` and `V[y]` give. -/
def State.drwDrawing (s : State) (x y : Reg) (n : BitVec 4) : Drawing :=
  s.drawSprite (s.originRow y) (s.originColumn x) n.toNat

section Draw

variable (s : State) (x y : Reg) (n : BitVec 4)

theorem exec_drw : exec (.drw x y n) s = .next
    (((s.setFb (s.drwDrawing x y n).fb).setReg VF (flagByte (s.drwDrawing x y n).hit)).emit
      (.present (s.drwDrawing x y n).fb)) := rfl

theorem State.drwDrawing_cell (row : Fin 32) (col : Fin 64) :
    (s.drwDrawing x y n).fb[row][col] = Bool.xor (s.cell row col) (drwPixel s x y n row col) := by
  rw [State.drwDrawing, (s.drawSprite_toggled _ _ _).cell, spriteBit_spriteRows]
  rfl

theorem State.drwDrawing_hit_iff :
    (s.drwDrawing x y n).hit = true ↔ ∃ row col, s.cell row col = true ∧ drwPixel s x y n row col = true := by
  simp only [State.drwDrawing, (s.drawSprite_toggled _ _ _).hit_iff, spriteBit_spriteRows, Bool.false_eq_true, false_or]
  rfl

end Draw

/-- Settles O42: the cells and the collision are the draw's, and VF is written last, so it holds the collision even
when it gave a coordinate. -/
theorem drawTogglesTheVisibleSprite : Obligations.DrawTogglesTheVisibleSprite := by
  refine ⟨fun x y n => decodeWord_encode (.drw x y n) rfl, fun s x y n => ?_⟩
  refine ⟨_, exec_drw s x y n, rfl, s.drwDrawing_cell x y n, ?_, ?_, ?_⟩
  · intro hcollision
    simp [(s.drwDrawing_hit_iff x y n).mpr hcollision, flagByte]
  · intro hclear
    have hmiss : (s.drwDrawing x y n).hit = false := by
      rw [Bool.eq_false_iff, Ne, s.drwDrawing_hit_iff]
      rintro ⟨row, col, hlit, hpixel⟩
      exact Bool.false_ne_true ((hclear row col hlit).symm.trans hpixel)
    simp [hmiss, flagByte]
  · intro k hk
    simp [hk]

end Sys2Proof.Machine
end

section
/-! SUPPORT. Control flow and the call stack (42_control_flow.md R65 to R72): the state each instruction answers with, as
the operations on PC and the stack that make it. -/

namespace Sys2Proof.Machine

/-! ## The operations on PC and the stack -/

/-- PC is two past the address fetched from, and that address is the one recorded (60_exceptions.md R105). -/
theorem State.raiseFault_faulted (s : State) (code : FaultCode) (w : Word) :
    Faulted s (s.raiseFault code w) code w :=
  ⟨s.pc - 2, rfl, (BitVec.sub_add_cancel s.pc 2).symm⟩

section Skip
variable (s : State) (a b : Byte)

theorem State.skipIf_beq : s.skipIf (a == b) = if a = b then s.advancePc else s := by
  simp only [State.skipIf, beq_iff_eq]

theorem State.skipIf_bne : s.skipIf (a != b) = if a = b then s else s.advancePc := by
  simp only [State.skipIf, bne_iff_ne, ite_not]

end Skip

theorem State.top_of_sp_eq_succ (s : State) (k : Fin 16) (hk : s.sp.val = k.val + 1) (hne : s.sp.val ≠ 0) :
    s.top hne = s.stack[k] := by
  simp [State.top, hk]

/-! ## Jumps (42_control_flow.md R66, R72) -/

theorem exec_jp (s : State) (nnn : Addr) : exec (.jp nnn) s = .next (s.setPc (nnn.setWidth 16)) := rfl

theorem exec_jpV0 (s : State) (x : Reg) (nnn : Addr) :
    exec (.jpV0 x nnn) s = .next (s.setPc (BitVec.ofNat 16 (nnn.toNat + (s.jumpOffset x).toNat))) := rfl

/-- Settles O25: PC takes the address operand, and widening keeps its value. -/
theorem jumpSetsPc : Obligations.JumpSetsPc := by
  refine ⟨fun nnn => decodeWord_encode (.jp nnn) rfl, fun s nnn => ⟨_, exec_jp s nnn, rfl, ?_⟩⟩
  exact BitVec.toNat_setWidth_of_le (by decide)

/-- The largest address and the largest byte sum to less than 65536, so PC holds BNNN's sum unreduced. -/
theorem jumpTarget_toNat (nnn : Addr) (b : Byte) : (BitVec.ofNat 16 (nnn.toNat + b.toNat)).toNat = nnn.toNat + b.toNat := by
  rw [BitVec.toNat_ofNat, Nat.mod_eq_of_lt]; omega

/-- Settles O26: the word's register is its address's top nibble, and the sum fits in PC. -/
theorem jumpAddsTheQuirkRegister : Obligations.JumpAddsTheQuirkRegister := by
  refine ⟨fun nnn => ⟨topNibble nnn, topNibble_val nnn, ?_⟩, fun s x nnn => ?_⟩
  · exact decodeWord_encode (.jpV0 (topNibble nnn) nnn) (beq_self_eq_true _)
  · exact ⟨_, exec_jpV0 s x nnn, rfl, jumpTarget_toNat nnn (s.jumpOffset x)⟩

/-! ## Calls and returns (42_control_flow.md R65, R67; 60_exceptions.md R101, R102) -/

theorem exec_call_of_full (s : State) (nnn : Addr) (h : ¬ s.sp.val < 16) :
    exec (.call nnn) s = .next (s.raiseFault .stackOverflow (encode (.call nnn))) := dif_neg h

theorem exec_ret_of_empty (s : State) (h : s.sp.val = 0) :
    exec .ret s = .next (s.raiseFault .stackUnderflow (encode .ret)) := dif_pos h

/-- Settles O27: with room the push and the jump, on a full stack the fault alone. -/
theorem callPushesOrOverflows : Obligations.CallPushesOrOverflows := by
  refine ⟨fun nnn => decodeWord_encode (.call nnn) rfl, fun s nnn => ⟨fun hroom => ?_, fun hfull => ?_⟩⟩
  · exact ⟨_, exec_call_of_room s nnn hroom, rfl, rfl, BitVec.toNat_setWidth_of_le (by decide)⟩
  · have hnoroom : ¬ s.sp.val < 16 := by omega
    exact ⟨_, exec_call_of_full s nnn hnoroom, s.raiseFault_faulted _ _⟩

/-- Settles O28: with an entry the pop, on an empty stack the fault alone. -/
theorem returnPopsOrUnderflows : Obligations.ReturnPopsOrUnderflows := by
  refine ⟨decodeWord_encode .ret rfl, fun s => ⟨fun k hk => ?_, fun hempty => ?_⟩⟩
  · have hne : s.sp.val ≠ 0 := by omega
    refine ⟨s.pop hne, exec_ret_of_nonempty s hne, ?_, ?_⟩
    · rw [← s.top_of_sp_eq_succ k hk hne]; rfl
    · simp [hk]
  · exact ⟨_, exec_ret_of_empty s hempty, s.raiseFault_faulted _ _⟩

/-! ## Skips (42_control_flow.md R68 to R71) -/

/-- The words of families 5 and 9 whose low nibble is not 0 are unknown (30_encoding.md R50). -/
theorem decodeWord_wordXYN_of_ne_zero {op n : BitVec 4} (hop : op = 0x5 ∨ op = 0x9) (hn : n ≠ 0) (x y : Reg) :
    decodeWord (wordXYN op x y n) = .error .unknownOpcode := by
  have hunknown : UnknownWord (wordXYN op x y n) := .inr (.inl (by simpa using ⟨hop, hn⟩))
  exact (unknownWordsByFamily _).1.mpr hunknown

/-- Settles O30: a taken skip is the advance of PC, and each of the four takes it when its comparison says so. -/
theorem skipsAddTwo : Obligations.SkipsAddTwo := by
  refine ⟨fun x y nn => ⟨?_, ?_, ?_, ?_, fun n hn => ⟨?_, ?_⟩⟩, fun s x y nn => ?_⟩
  · exact decodeWord_encode (.seByte x nn) rfl
  · exact decodeWord_encode (.sneByte x nn) rfl
  · exact decodeWord_encode (.seReg x y) rfl
  · exact decodeWord_encode (.sneReg x y) rfl
  · exact decodeWord_wordXYN_of_ne_zero (.inl rfl) hn x y
  · exact decodeWord_wordXYN_of_ne_zero (.inr rfl) hn x y
  · refine ⟨s.advancePc, rfl, s.advancePc_pc_toNat, ?_, ?_, ?_, ?_⟩
    · exact congrArg Host.Outcome.next (s.skipIf_beq (s.reg x) nn)
    · exact congrArg Host.Outcome.next (s.skipIf_bne (s.reg x) nn)
    · exact congrArg Host.Outcome.next (s.skipIf_beq (s.reg x) (s.reg y))
    · exact congrArg Host.Outcome.next (s.skipIf_bne (s.reg x) (s.reg y))

end Sys2Proof.Machine
end

section
/-! SUPPORT. The register and ALU instructions (43_alu.md): the two shapes their register writes have, and the values of
the 8-bit results and flags as numbers. -/

namespace Sys2Proof.Machine

/-! ## The two shapes of a register write (43_alu.md R74) -/

section Writes
variable (s : State) (x : Reg) (b : Byte)

theorem State.setReg_regWritten : RegWritten s (s.setReg x b) x b := ⟨rfl, fun k => s.setReg_reg x k b⟩

/-- The order of the two writes shows only where they meet, which is when x is F. -/
theorem State.setRegFlag_flagWritten (f : Bool) : FlagWritten s (s.setRegFlag x b f) x b f := by
  refine ⟨s.setRegFlag_only_v x b f, fun k hkx hkF => ?_, fun hxF => ⟨?_, ?_⟩, fun hxF => ?_⟩
  · simp only [State.setRegFlag_reg, if_neg hkx, if_neg hkF, ite_self]
  · simp only [State.setRegFlag_reg, if_neg hxF, if_pos, ite_self]
  · simp only [State.setRegFlag_reg, if_neg (Ne.symm hxF), if_pos, ite_self, flagByte]
  · simp only [State.setRegFlag_reg, hxF, if_pos, flagByte]

end Writes

/-! ## Results and flags as numbers (43_alu.md R73, R83, R85) -/

section Values
variable (a b : Byte)

@[simp] theorem addByte_toNat : (addByte a b).toNat = (a.toNat + b.toNat) % 256 := BitVec.toNat_ofNat _ _

@[simp] theorem subByte_toNat : ((subByte a b).toNat : Int) = (a.toNat - b.toNat : Int) % 256 := by
  rw [subByte, BitVec.toNat_ofInt, Int.toNat_of_nonneg (Int.emod_nonneg _ (by decide))]
  rfl

@[simp] theorem shiftRight_toNat : (shiftRight a).toNat = a.toNat / 2 := by
  rw [shiftRight, BitVec.toNat_ofNat]; omega

@[simp] theorem shiftLeft_toNat : (shiftLeft a).toNat = a.toNat * 2 % 256 := BitVec.toNat_ofNat _ _

theorem outRight_eq_decide_odd : outRight a = decide (a.toNat % 2 = 1) := by
  rw [outRight, BitVec.getLsbD, Nat.testBit_zero]

/-- Bit 7 is the sign bit of a byte. -/
theorem outLeft_eq_decide_ge : outLeft a = decide (a.toNat ≥ 128) := by
  rw [outLeft, ← BitVec.msb_eq_getLsbD_last, BitVec.msb_eq_decide]

end Values

/-! ## Arithmetic with a flag (43_alu.md R81, R82, R84) -/

/-- Settles O21: the carry is the comparison of the true sum, and the flag-writing form puts it in VF. -/
theorem addSetsCarry : Obligations.AddSetsCarry := by
  refine ⟨fun x y => decodeWord_encode (.addReg x y) rfl, fun s x y => ?_⟩
  exact ⟨_, addByte (s.reg x) (s.reg y), rfl, addByte_toNat _ _, s.setRegFlag_flagWritten x _ (carry _ _)⟩

/-- Settles O22: one subtraction with its not-borrow, the operands in either order. -/
theorem subtractsSetNotBorrow : Obligations.SubtractsSetNotBorrow := by
  refine ⟨fun x y => ⟨?_, ?_⟩, fun s x y => ⟨?_, ?_⟩⟩
  · exact decodeWord_encode (.subReg x y) rfl
  · exact decodeWord_encode (.subn x y) rfl
  · exact ⟨_, subByte (s.reg x) (s.reg y), rfl, subByte_toNat _ _, s.setRegFlag_flagWritten x _ (notBorrow _ _)⟩
  · exact ⟨_, subByte (s.reg y) (s.reg x), rfl, subByte_toNat _ _, s.setRegFlag_flagWritten x _ (notBorrow _ _)⟩

/-! ## Shifts (43_alu.md R83, R85) -/

/-- Settles O23: the statement's source is the model's, and the bit moved out is its parity or its upper half. -/
theorem shiftsUseTheQuirkSource : Obligations.ShiftsUseTheQuirkSource := by
  refine ⟨fun x y => ⟨?_, ?_⟩, fun s x y src hsrc => ?_⟩
  · exact decodeWord_encode (.shr x y) rfl
  · exact decodeWord_encode (.shl x y) rfl
  · obtain rfl : src = s.shiftSource x y := hsrc
    rw [← outRight_eq_decide_odd, ← outLeft_eq_decide_ge]
    constructor
    · exact ⟨_, shiftRight (s.shiftSource x y), rfl, shiftRight_toNat _, s.setRegFlag_flagWritten x _ _⟩
    · exact ⟨_, shiftLeft (s.shiftSource x y), rfl, shiftLeft_toNat _, s.setRegFlag_flagWritten x _ _⟩

/-! ## Writes of one register (43_alu.md R75 to R80) -/

/-- Settles O19: each is one register write, of the operand or of the sum. -/
theorem byteLoadAndAdd : Obligations.ByteLoadAndAdd := by
  refine ⟨fun x nn => ⟨?_, ?_⟩, fun s x nn => ⟨?_, ?_⟩⟩
  · exact decodeWord_encode (.ldByte x nn) rfl
  · exact decodeWord_encode (.addByte x nn) rfl
  · exact ⟨_, rfl, s.setReg_regWritten x nn⟩
  · exact ⟨_, addByte (s.reg x) nn, rfl, s.setReg_regWritten x _, addByte_toNat _ _⟩

/-- Settles O20: each is one register write, of the copy or of the bitwise result. -/
theorem copyAndLogic : Obligations.CopyAndLogic := by
  refine ⟨fun x y => ⟨?_, ?_, ?_, ?_⟩, fun s x y => ⟨?_, ?_, ?_, ?_⟩⟩
  · exact decodeWord_encode (.ldReg x y) rfl
  · exact decodeWord_encode (.orReg x y) rfl
  · exact decodeWord_encode (.andReg x y) rfl
  · exact decodeWord_encode (.xorReg x y) rfl
  · exact ⟨_, rfl, s.setReg_regWritten x (s.reg y)⟩
  · exact ⟨_, rfl, s.setReg_regWritten x (s.reg x ||| s.reg y)⟩
  · exact ⟨_, rfl, s.setReg_regWritten x (s.reg x &&& s.reg y)⟩
  · exact ⟨_, rfl, s.setReg_regWritten x (s.reg x ^^^ s.reg y)⟩

/-! ## The random byte (43_alu.md R86) -/

theorem State.nextRandom_of_rand_eq_cons {s : State} {b : Byte} {rest : List Byte} (h : s.rand = b :: rest) :
    s.nextRandom = b := by
  rw [State.nextRandom, h]; rfl

/-- Settles O24: the draw is taken off the input, then its masked value is written to the register. -/
theorem randomByteUnderMask : Obligations.RandomByteUnderMask := by
  refine ⟨fun x nn => decodeWord_encode (.rnd x nn) rfl, fun s x nn => ?_⟩
  refine ⟨s.drawRandom.setReg x (s.nextRandom &&& nn), s.nextRandom, rfl, rfl, ?_, fun k => ?_⟩
  · exact fun b rest h => State.nextRandom_of_rand_eq_cons h
  · rw [State.setReg_reg, State.drawRandom_reg]

end Sys2Proof.Machine
end

section
/-! SUPPORT. The index register and memory instructions (44_index_memory.md R87 to R92): the values I takes, and the
bytes and registers that FX33, FX55 and FX65 leave from I on. -/

namespace Sys2Proof.Machine

/-! ## The index register (44_index_memory.md R87 to R89) -/

section Index
variable (s : State)

theorem exec_ldI (nnn : Addr) : exec (.ldI nnn) s = .next (s.setI (nnn.setWidth 16)) := rfl

theorem exec_addI (x : Reg) :
    exec (.addI x) s = .next (s.setI (BitVec.ofNat 16 (s.i.toNat + (s.reg x).toNat))) := rfl

theorem exec_ldF (x : Reg) : exec (.ldF x) s = .next (s.setI (glyphAddress (s.reg x))) := rfl

end Index

/-- The last glyph is at 0x09B, so the address fits in I. -/
@[simp] theorem glyphAddress_toNat (b : Byte) : (glyphAddress b).toNat = 0x050 + 5 * (b.toNat % 16) := by
  simp only [glyphAddress, Config.fontBase, BitVec.toNat_ofNat]; omega

/-- Settles O35: each is one write of I, of the address operand, the reduced sum or the glyph's address. -/
theorem indexIsSet : Obligations.IndexIsSet := by
  refine ⟨fun nnn x => ⟨?_, ?_, ?_⟩, fun s nnn x => ⟨?_, ?_, ?_⟩⟩
  · exact decodeWord_encode (.ldI nnn) rfl
  · exact decodeWord_encode (.addI x) rfl
  · exact decodeWord_encode (.ldF x) rfl
  · exact ⟨_, exec_ldI s nnn, rfl, BitVec.toNat_setWidth_of_le (by decide)⟩
  · exact ⟨_, exec_addI s x, rfl, BitVec.toNat_ofNat _ _⟩
  · exact ⟨_, exec_ldF s x, rfl, glyphAddress_toNat _⟩

/-! ## Decimal digits (44_index_memory.md R90) -/

@[simp] theorem ones_toNat (b : Byte) : (ones b).toNat = b.toNat % 10 := by
  rw [ones, BitVec.toNat_ofNat]; omega

/-- The three cells are different ones, across the wrap too, so no digit overwrites another. -/
theorem State.storeDigits_readByte_indexed (s : State) (b : Byte) :
    (s.storeDigits b).readByte (s.indexed 0) = hundreds b ∧ (s.storeDigits b).readByte (s.indexed 1) = tens b ∧
      (s.storeDigits b).readByte (s.indexed 2) = ones b := by
  have h01 : s.indexed 0 % 4096 ≠ s.indexed 1 % 4096 := by simp only [State.indexed]; omega
  have h02 : s.indexed 0 % 4096 ≠ s.indexed 2 % 4096 := by simp only [State.indexed]; omega
  have h12 : s.indexed 1 % 4096 ≠ s.indexed 2 % 4096 := by simp only [State.indexed]; omega
  refine ⟨?_, ?_, ?_⟩
  · rw [s.storeDigits_readByte, if_neg h02, if_neg h01, if_pos rfl]
  · rw [s.storeDigits_readByte, if_neg h12, if_pos rfl]
  · rw [s.storeDigits_readByte, if_pos rfl]

/-- Settles O36: each digit is read back from its own cell, and FX33 stores to no other. -/
theorem decimalDigitsAreStored : Obligations.DecimalDigitsAreStored := by
  refine ⟨fun x => decodeWord_encode (.ldB x) rfl, fun s x => ?_⟩
  obtain ⟨hhundreds, htens, hones⟩ := s.storeDigits_readByte_indexed (s.reg x)
  refine ⟨_, exec_ldB s x, rfl, ?_, ?_, ?_, ldB_changesOnlyAt s x⟩
  · rw [hhundreds, hundreds_toNat]
  · rw [htens, tens_toNat]
  · rw [hones, ones_toNat]

/-! ## I after a register range (44_index_memory.md R91, R92) -/

section Bump
variable (s : State)

theorem State.bumpI_only_i (x : Reg) : s.bumpI x = { s with i := (s.bumpI x).i } := by
  unfold State.bumpI; split <;> rfl

theorem State.bumpI_i_toNat (x : Reg) :
    (s.bumpI x).i.toNat = if s.quirks.incrementI then (s.i.toNat + x.val + 1) % 65536 else s.i.toNat := by
  rw [State.bumpI_i, apply_ite BitVec.toNat, BitVec.toNat_ofNat]

@[simp] theorem storeFirst_i (n : Nat) : (storeFirst n s).i = s.i := by rw [storeFirst_only_mem]

@[simp] theorem storeFirst_quirks (n : Nat) : (storeFirst n s).quirks = s.quirks := by rw [storeFirst_only_mem]

@[simp] theorem loadFirst_i (n : Nat) : (loadFirst n s).i = s.i := by rw [loadFirst_only_v]

@[simp] theorem loadFirst_quirks (n : Nat) : (loadFirst n s).quirks = s.quirks := by rw [loadFirst_only_v]

end Bump

/-! ## Registers stored (44_index_memory.md R91) -/

theorem storeRegs_readByte_indexed (s : State) (x k : Reg) (hk : k ≤ x) :
    ((storeFirst (x.val + 1) s).bumpI x).readByte (s.indexed k.val) = s.reg k := by
  rw [State.bumpI_readByte, storeFirst_readByte_indexed s _ x.isLt k (Nat.lt_succ_of_le hk)]

/-- Settles O37: each register is read back from its own cell, FX55 stores to no other, and only the last step, the
quirk's, moves I. -/
theorem registersAreStored : Obligations.RegistersAreStored := by
  refine ⟨fun x => decodeWord_encode (.storeRegs x) rfl, fun s x => ⟨_, exec_storeRegs s x, ?_, ?_, ?_, ?_⟩⟩
  · rw [State.bumpI_only_i, storeFirst_only_mem]
  · exact storeRegs_readByte_indexed s x
  · exact storeRegs_changesOnlyAt s x
  · rw [State.bumpI_i_toNat, storeFirst_i, storeFirst_quirks]

/-! ## Registers loaded (44_index_memory.md R92) -/

section Loads
variable (s : State) (x : Reg)

theorem exec_loadRegs : exec (.loadRegs x) s = .next ((loadFirst (x.val + 1) s).bumpI x) := rfl

theorem loadRegs_reg (k : Reg) :
    ((loadFirst (x.val + 1) s).bumpI x).reg k = if k ≤ x then s.readByte (s.indexed k.val) else s.reg k := by
  rw [State.bumpI_reg, loadFirst_reg s _ x.isLt]
  exact if_congr Nat.lt_succ_iff rfl rfl

end Loads

/-- Settles O38: the registers up to x are loaded from the cells from I on, and only the quirk moves I. -/
theorem registersAreLoaded : Obligations.RegistersAreLoaded := by
  refine ⟨fun x => decodeWord_encode (.loadRegs x) rfl, fun s x => ⟨_, exec_loadRegs s x, ?_, ?_, ?_⟩⟩
  · rw [State.bumpI_only_i, loadFirst_only_v]
  · exact loadRegs_reg s x
  · rw [State.bumpI_i_toNat, loadFirst_i, loadFirst_quirks]

/-- Settles O39: with I back in place the load reads the cells the store filled. -/
theorem loadUndoesStore : Obligations.LoadUndoesStore := by
  intro s x t u ht hmem hi
  obtain rfl := Host.Outcome.next.inj ht
  refine ⟨_, exec_loadRegs u x, fun k => ?_⟩
  rw [loadRegs_reg]
  refine ite_congr rfl (fun hk => ?_) fun _ => rfl
  calc u.readByte (u.indexed k.val)
    _ = ((storeFirst (x.val + 1) s).bumpI x).readByte (s.indexed k.val) := by
      simp only [State.readByte, State.indexed, hmem, hi]
    _ = s.reg k := storeRegs_readByte_indexed s x k hk

end Sys2Proof.Machine
end

section
/-! SUPPORT. The key and timer instructions (45_keys_timers.md R93 to R98): the key skips and their fault, the timer
moves, and the wait of FX0A from its start to the key press. -/

namespace Sys2Proof.Machine

/-! ## Key skips (45_keys_timers.md R93, R94; 60_exceptions.md R103) -/

section KeySkips
variable (s : State) (x : Reg)

theorem State.skipIf_not (c : Bool) : s.skipIf (!c) = if c then s else s.advancePc := by
  cases c <;> rfl

theorem exec_skp_of_key (h : (s.reg x).toNat ≤ 15) :
    exec (.skp x) s = .next (s.skipIf (s.keyHeld (s.reg x))) := if_neg (Nat.not_lt.mpr h)

theorem exec_sknp_of_key (h : (s.reg x).toNat ≤ 15) :
    exec (.sknp x) s = .next (s.skipIf (!s.keyHeld (s.reg x))) := if_neg (Nat.not_lt.mpr h)

theorem exec_skp_of_no_key (h : (s.reg x).toNat > 15) :
    exec (.skp x) s = .next (s.raiseFault .keyOutOfRange (encode (.skp x))) := if_pos h

theorem exec_sknp_of_no_key (h : (s.reg x).toNat > 15) :
    exec (.sknp x) s = .next (s.raiseFault .keyOutOfRange (encode (.sknp x))) := if_pos h

end KeySkips

/-- Settles O31: for a key number the skip is the advance of PC by the key's bit, and above 15 the fault alone. -/
theorem keySkipsOrFault : Obligations.KeySkipsOrFault := by
  refine ⟨fun x => ⟨?_, ?_⟩, fun s x => ⟨fun hkey => ?_, fun hnokey => ⟨?_, ?_⟩⟩⟩
  · exact decodeWord_encode (.skp x) rfl
  · exact decodeWord_encode (.sknp x) rfl
  · refine ⟨s.advancePc, rfl, s.advancePc_pc_toNat, exec_skp_of_key s x hkey, ?_⟩
    rw [exec_sknp_of_key s x hkey, State.skipIf_not]
    rfl
  · exact ⟨_, exec_skp_of_no_key s x hnokey, s.raiseFault_faulted _ _⟩
  · exact ⟨_, exec_sknp_of_no_key s x hnokey, s.raiseFault_faulted _ _⟩

/-! ## Timer moves (45_keys_timers.md R95, R97, R98) -/

/-- Settles O32: one register write from DT, one write of DT and one of ST. -/
theorem timerMoves : Obligations.TimerMoves := by
  refine ⟨fun x => ⟨?_, ?_, ?_⟩, fun s x => ⟨?_, ?_, ?_⟩⟩
  · exact decodeWord_encode (.ldVxDT x) rfl
  · exact decodeWord_encode (.ldDTVx x) rfl
  · exact decodeWord_encode (.ldSTVx x) rfl
  · exact ⟨_, rfl, s.setReg_regWritten x s.dt⟩
  · rfl
  · rfl

/-! ## The wait for a key (45_keys_timers.md R96) -/

/-- The state after n Ticks, with what is left of the schedule. -/
def State.ticked (n : Nat) (rest : List Transaction) (s : State) : State :=
  { s with dt := BitVec.ofNat 8 (s.dt.toNat - n), st := BitVec.ofNat 8 (s.st.toNat - n), schedule := rest }

theorem State.ticked_zero (s : State) : s.ticked 0 s.schedule = s := by
  simp [State.ticked]

theorem countDown_sub (b : Byte) (n : Nat) : (countDown b).toNat - n = b.toNat - (n + 1) := by
  rw [countDown_toNat]; omega

/-- A Tick more at the start is a Tick more in all. -/
theorem State.ticked_countDown (s : State) (n : Nat) (rest : List Transaction) :
    ((s.setDt (countDown s.dt)).setSt (countDown s.st)).ticked n rest = s.ticked (n + 1) rest := by
  simp only [State.ticked, State.setDt_dt, State.setSt_dt, State.setSt_st, countDown_sub]
  rfl

theorem ticked_timer_toNat (b : Byte) (n : Nat) : (BitVec.ofNat 8 (b.toNat - n)).toNat = b.toNat - n := by
  rw [BitVec.toNat_ofNat]; omega

theorem State.nextTransaction_of_schedule_eq_cons {s : State} {e : Transaction} {rest : List Transaction}
    (h : s.schedule = e :: rest) : s.nextTransaction = e := by
  rw [State.nextTransaction, h]; rfl

theorem not_halted_of_awaitKey {s : State} {r : Reg} (hwait : s.run = .awaitKey r) : ¬ Halted s := by
  rintro ⟨code, p, w, hhalt⟩
  cases hwait.symm.trans hhalt

/-- Steps and Ticks in a wait go by one after the other: only the timers fall, one a Tick. -/
theorem run_through_wait {r : Reg} (events rest : List Transaction) (hevents : ∀ e ∈ events, e = .step ∨ e = .tick)
    (m : Nat) (s : State) (hwait : s.run = .awaitKey r) (hschedule : s.schedule = events ++ rest) :
    core.run (m + events.length) s = core.run m (s.ticked (events.count .tick) rest) := by
  induction events generalizing s with
  | nil =>
    obtain rfl : s.schedule = rest := hschedule
    rw [List.count_nil, s.ticked_zero]
    rfl
  | cons e events ih =>
    have htail : s.takeTransaction.schedule = events ++ rest := congrArg List.tail hschedule
    have hstep := step_eq s e (State.nextTransaction_of_schedule_eq_cons hschedule)
    obtain ⟨he, hlater⟩ := List.forall_mem_cons.mp hevents
    obtain rfl | rfl := he
    · rw [perform, engineStep_awaitKey s.takeTransaction r hwait] at hstep
      have hrest := ih hlater s.takeTransaction hwait htail
      rw [List.count_cons_of_ne (by decide)]
      exact (run_succ_of_step s _ _ hstep).trans hrest
    · rw [perform, tick_live s.takeTransaction (not_halted_of_awaitKey hwait)] at hstep
      have hrest := ih hlater ((s.takeTransaction.setDt (countDown s.dt)).setSt (countDown s.st)) hwait htail
      rw [List.count_cons_self, ← State.ticked_countDown]
      exact (run_succ_of_step s _ _ hstep).trans hrest

theorem step_keyPress_of_awaitKey {s : State} {r : Reg} {k : Key} (hwait : s.run = .awaitKey r)
    (hnext : s.nextTransaction = .keyPress k) :
    step s = .next ((s.takeTransaction.setReg r (BitVec.ofNat 8 k.val)).setRun .running) := by
  rw [step_eq s _ hnext, perform, keyPress_awaitKey s.takeTransaction k r hwait]

/-- Settles O18: the Steps and Ticks lower the timers only, and the press writes the register. -/
theorem waitForKeyRunsToThePress : Obligations.WaitForKeyRunsToThePress := by
  refine ⟨fun x => decodeWord_encode (.ldVxK x) rfl, fun s x => ⟨s.setRun (.awaitKey x), rfl, rfl, ?_⟩⟩
  intro events k hevents hschedule
  have hwaits := run_through_wait (r := x) events [.keyPress k] hevents 1 (s.setRun (.awaitKey x)) rfl hschedule
  have hpress := step_keyPress_of_awaitKey (r := x) (k := k)
    (s := (s.setRun (.awaitKey x)).ticked (events.count .tick) [.keyPress k]) rfl rfl
  rw [Nat.add_comm, hwaits, run_succ_of_step _ 0 _ hpress]
  exact ⟨_, rfl, rfl, ticked_timer_toNat s.dt _, ticked_timer_toNat s.st _, fun j => State.setReg_reg _ x j _⟩

end Sys2Proof.Machine
end

section
/-! SUPPORT. The invariant of the block: memory stays canonical, QUIRKS stays the construction's, and RUN tells the truth
through every transaction (60_exceptions.md R104, R105; 45_keys_timers.md R96). -/

namespace Sys2Proof.Machine

/-! ## Canonical memory (20_memory.md R33) -/

theorem State.writeByte_mem_wf {s : State} (a : Nat) (b : Byte) (h : s.mem.wf = true) :
    (s.writeByte a b).mem.wf = true :=
  Memory.wf_write _ _ _ (Nat.mod_lt _ (by decide)) h

theorem State.storeDigits_mem_wf {s : State} (b : Byte) (h : s.mem.wf = true) : (s.storeDigits b).mem.wf = true :=
  State.writeByte_mem_wf _ _ (State.writeByte_mem_wf _ _ (State.writeByte_mem_wf _ _ h))

theorem storeFirst_mem_wf {s : State} (n : Nat) (h : s.mem.wf = true) : (storeFirst n s).mem.wf = true := by
  induction n with
  | zero => exact h
  | succ n ih => exact State.writeByte_mem_wf _ _ ih

/-! ## What an instruction does to RUN (60_exceptions.md R101 to R103; 45_keys_timers.md R96) -/

@[simp] theorem storeFirst_run (n : Nat) (s : State) : (storeFirst n s).run = s.run := by rw [storeFirst_only_mem]

@[simp] theorem loadFirst_run (n : Nat) (s : State) : (loadFirst n s).run = s.run := by rw [loadFirst_only_v]

/-- How an instruction may leave RUN: as it was, memory staying canonical, or, changing nothing else, waiting or halted
on itself with a true cause. -/
inductive LeavesRun (i : Instr) (s : State) : State → Prop
  | kept {t : State} (hrun : t.run = s.run) (hmem : s.mem.wf = true → t.mem.wf = true) : LeavesRun i s t
  | waits {x : Reg} (hi : i = .ldVxK x) : LeavesRun i s (s.setRun (.awaitKey x))
  | faults {code : FaultCode} (hcause : FaultCause s (encode i) code) : LeavesRun i s (s.raiseFault code (encode i))

theorem LeavesRun.kept_of_mem_eq {i : Instr} {s t : State} (hrun : t.run = s.run) (hmem : t.mem = s.mem) :
    LeavesRun i s t := .kept hrun fun h => hmem ▸ h

theorem exec_ret_leavesRun (s : State) : ∃ t, exec .ret s = .next t ∧ LeavesRun .ret s t := by
  by_cases hsp : s.sp.val = 0
  · exact ⟨_, exec_ret_of_empty s hsp, .faults (code := .stackUnderflow) ⟨decodeWord_encode .ret rfl, hsp⟩⟩
  · exact ⟨_, exec_ret_of_nonempty s hsp, .kept rfl id⟩

theorem exec_call_leavesRun (nnn : Addr) (s : State) :
    ∃ t, exec (.call nnn) s = .next t ∧ LeavesRun (.call nnn) s t := by
  by_cases hsp : s.sp.val < 16
  · exact ⟨_, exec_call_of_room s nnn hsp, .kept rfl id⟩
  · have hfull : s.sp.val = 16 := by omega
    exact ⟨_, exec_call_of_full s nnn hsp,
      .faults (code := .stackOverflow) ⟨nnn, decodeWord_encode (.call nnn) rfl, hfull⟩⟩

theorem State.skipIf_leavesRun (i : Instr) (s : State) (c : Bool) : LeavesRun i s (s.skipIf c) :=
  .kept_of_mem_eq (s.skipIf_run c) (s.skipIf_mem c)

theorem exec_skp_leavesRun (x : Reg) (s : State) : ∃ t, exec (.skp x) s = .next t ∧ LeavesRun (.skp x) s t := by
  rcases Nat.lt_or_ge 15 (s.reg x).toNat with hnokey | hkey
  · exact ⟨_, exec_skp_of_no_key s x hnokey,
      .faults (code := .keyOutOfRange) ⟨x, .inl (decodeWord_encode (.skp x) rfl), hnokey⟩⟩
  · exact ⟨_, exec_skp_of_key s x hkey, s.skipIf_leavesRun _ _⟩

theorem exec_sknp_leavesRun (x : Reg) (s : State) : ∃ t, exec (.sknp x) s = .next t ∧ LeavesRun (.sknp x) s t := by
  rcases Nat.lt_or_ge 15 (s.reg x).toNat with hnokey | hkey
  · exact ⟨_, exec_sknp_of_no_key s x hnokey,
      .faults (code := .keyOutOfRange) ⟨x, .inr (decodeWord_encode (.sknp x) rfl), hnokey⟩⟩
  · exact ⟨_, exec_sknp_of_key s x hkey, s.skipIf_leavesRun _ _⟩

theorem storeRegs_leavesRun (x : Reg) (s : State) :
    LeavesRun (.storeRegs x) s ((storeFirst (x.val + 1) s).bumpI x) := by
  refine .kept ?_ fun h => ?_
  · rw [State.bumpI_run, storeFirst_run]
  · rw [State.bumpI_mem]; exact storeFirst_mem_wf _ h

theorem loadRegs_leavesRun (x : Reg) (s : State) :
    LeavesRun (.loadRegs x) s ((loadFirst (x.val + 1) s).bumpI x) := by
  refine .kept_of_mem_eq ?_ ?_
  · rw [State.bumpI_run, loadFirst_run]
  · rw [State.bumpI_mem, loadFirst_mem]

/-- RUN is written by FX0A and by the four instructions that can fault, memory by FX33 and FX55. -/
theorem exec_leavesRun (i : Instr) (s : State) : ∃ t, exec i s = .next t ∧ LeavesRun i s t := by
  cases i with
  | ret => exact exec_ret_leavesRun s
  | call nnn => exact exec_call_leavesRun nnn s
  | skp x => exact exec_skp_leavesRun x s
  | sknp x => exact exec_sknp_leavesRun x s
  | ldVxK x => exact ⟨_, rfl, .waits rfl⟩
  | ldB x => exact ⟨_, exec_ldB s x, .kept rfl (State.storeDigits_mem_wf _)⟩
  | storeRegs x => exact ⟨_, exec_storeRegs s x, storeRegs_leavesRun x s⟩
  | loadRegs x => exact ⟨_, exec_loadRegs s x, loadRegs_leavesRun x s⟩
  | seByte | sneByte | seReg | sneReg => exact ⟨_, rfl, s.skipIf_leavesRun _ _⟩
  | addReg | subReg | shr | subn | shl =>
    exact ⟨_, rfl, .kept_of_mem_eq (s.setRegFlag_run _ _ _) (s.setRegFlag_mem _ _ _)⟩
  | cls | jp | ldByte | addByte | ldReg | orReg | andReg | xorReg | ldI | jpV0 | rnd | drw | ldVxDT | ldDTVx | ldSTVx
  | addI | ldF => exact ⟨_, rfl, .kept rfl id⟩

/-! ## A true RUN, by run state -/

section Truth
variable {s : State}

theorem runTruthful_of_running (h : s.run = .running) : RunTruthful s ↔ s.build.image.length ≤ 3584 := by
  rw [RunTruthful, h]

theorem runTruthful_of_awaitKey {r : Reg} (h : s.run = .awaitKey r) :
    RunTruthful s ↔ s.build.image.length ≤ 3584 ∧ s.wordAt (s.pc - 2).toNat = encode (.ldVxK r) := by
  rw [RunTruthful, h]

theorem runTruthful_of_rejected {p w : Word} (h : s.run = .halted .imageRejected p w) :
    RunTruthful s ↔ s.build.image.length > 3584 ∧ p = 0 ∧ w = 0 := by
  rw [RunTruthful, h]

/-- A rejected image is no instruction's fault, so a record with a cause is of one of the other four codes. -/
theorem runTruthful_of_faultCause {code : FaultCode} {p w : Word} (h : s.run = .halted code p w)
    (haccepted : s.build.image.length ≤ 3584) (hpc : s.pc = p + 2) (hword : s.wordAt p.toNat = w)
    (hcause : FaultCause s w code) : RunTruthful s := by
  rw [RunTruthful, h]
  cases code with
  | imageRejected => exact hcause.elim
  | unknownOpcode | stackUnderflow | stackOverflow | keyOutOfRange => exact ⟨haccepted, hpc, hword, hcause⟩

end Truth

/-! ## A Step of a running block -/

section Running
variable {s : State}

theorem BlockInv.advancePc (hinv : BlockInv s) (hrun : s.run = .running) : BlockInv s.advancePc := by
  obtain ⟨hmem, hquirks, htrue⟩ := hinv
  exact ⟨hmem, hquirks, (runTruthful_of_running (s := s.advancePc) hrun).mpr ((runTruthful_of_running hrun).mp htrue)⟩

/-- PC was advanced past the word, so PC - 2 is its address still. -/
theorem State.advancePc_wordAt (s : State) : s.advancePc.wordAt (s.advancePc.pc - 2).toNat = s.fetchWord := by
  have hfetched : s.advancePc.pc - 2 = s.pc := BitVec.add_sub_cancel s.pc 2
  rw [hfetched]
  rfl

theorem BlockInv.raiseFault (hinv : BlockInv s) (hrun : s.run = .running) {code : FaultCode} {w : Word}
    (hword : s.wordAt (s.pc - 2).toNat = w) (hcause : FaultCause s w code) : BlockInv (s.raiseFault code w) := by
  obtain ⟨hmem, hquirks, htrue⟩ := hinv
  refine ⟨hmem, hquirks, runTruthful_of_faultCause (s := s.raiseFault code w) rfl ?_ ?_ hword ?_⟩
  · exact (runTruthful_of_running hrun).mp htrue
  · exact (BitVec.sub_add_cancel s.pc 2).symm
  · exact hcause

/-- An instruction executed with PC two past its word keeps the invariant. -/
theorem exec_keeps_blockInv (hinv : BlockInv s) (hrun : s.run = .running) (i : Instr)
    (hword : s.wordAt (s.pc - 2).toNat = encode i) : ∃ t, exec i s = .next t ∧ BlockInv t := by
  obtain ⟨t, ht, hquirks, hbuild⟩ := exec_sameConstruction i s
  obtain ⟨t', ht', hleaves⟩ := exec_leavesRun i s
  obtain rfl := Host.Outcome.next.inj (ht.symm.trans ht')
  have ⟨hmem, hconstruction, htrue⟩ := hinv
  have haccepted := (runTruthful_of_running hrun).mp htrue
  refine ⟨t, ht, ?_⟩
  cases hleaves with
  | kept hkept hwf =>
    refine ⟨hwf hmem, by rw [hquirks, hbuild, hconstruction], ?_⟩
    rwa [runTruthful_of_running (hkept.trans hrun), hbuild]
  | waits hi =>
    subst hi
    exact ⟨hmem, hconstruction, (runTruthful_of_awaitKey rfl).mpr ⟨haccepted, hword⟩⟩
  | faults hcause => exact hinv.raiseFault hrun hword hcause

theorem runInstruction_keeps_blockInv (hinv : BlockInv s) (hrun : s.run = .running) :
    ∃ t, runInstruction s = .next t ∧ BlockInv t := by
  have hadvanced := hinv.advancePc hrun
  unfold runInstruction
  split
  next i hdec =>
    obtain ⟨-, hencode⟩ := encodeOfDecodeIsIdentity _ _ hdec
    exact exec_keeps_blockInv hadvanced hrun i (s.advancePc_wordAt.trans hencode.symm)
  next e hdec => exact ⟨_, rfl, hadvanced.raiseFault hrun s.advancePc_wordAt ⟨e, hdec⟩⟩

end Running

/-! ## The transactions -/

section Transactions
variable {s : State} (hinv : BlockInv s)
include hinv

theorem engineStep_keeps_blockInv : ∃ t, engineStep s = .next t ∧ BlockInv t := by
  unfold engineStep
  split
  next hrun => exact runInstruction_keeps_blockInv hinv hrun
  next => exact ⟨s, rfl, hinv⟩
  next => exact ⟨s, rfl, hinv⟩

/-- The invariant does not speak of the timers. -/
theorem tick_keeps_blockInv : BlockInv (tick s) := by
  unfold tick; split <;> exact hinv

/-- A wait and a run both have an accepted image. -/
theorem keyPress_keeps_blockInv (k : Key) : BlockInv (keyPress k s) := by
  unfold keyPress
  split
  next r hwait =>
    obtain ⟨hmem, hquirks, htrue⟩ := hinv
    obtain ⟨haccepted, -⟩ := (runTruthful_of_awaitKey hwait).mp htrue
    exact ⟨hmem, hquirks, (runTruthful_of_running rfl).mpr haccepted⟩
  next => exact hinv
  next => exact hinv

end Transactions

theorem resetRun_of_rejected {c : Construction} (h : ¬ c.image.length ≤ 3584) :
    resetRun c = .halted .imageRejected 0 0 := if_neg (by simpa [imageAccepted] using h)

theorem resetWith_runTruthful (c : Construction) : RunTruthful (State.resetWith c) := by
  by_cases haccepted : c.image.length ≤ 3584
  · exact (runTruthful_of_running (s := .resetWith c) (resetRun_of_accepted haccepted)).mpr haccepted
  · exact (runTruthful_of_rejected (s := .resetWith c) (resetRun_of_rejected haccepted)).mpr
      ⟨Nat.not_le.mp haccepted, rfl, rfl⟩

theorem resetWith_blockInv (c : Construction) : BlockInv (State.resetWith c) :=
  ⟨loadedMemory_wf c, rfl, resetWith_runTruthful c⟩

theorem perform_keeps_blockInv {s : State} (hinv : BlockInv s) (tr : Transaction) :
    ∃ t, perform tr s = .next t ∧ BlockInv t := by
  cases tr with
  | step => exact engineStep_keeps_blockInv hinv
  | tick => exact ⟨_, rfl, tick_keeps_blockInv hinv⟩
  | keyPress k => exact ⟨_, rfl, keyPress_keeps_blockInv hinv k⟩
  | setKeys keys => exact ⟨_, rfl, hinv⟩
  | reset => exact ⟨_, rfl, resetWith_blockInv s.build⟩

/-- Settles O53: a step is one transaction, and every transaction keeps the invariant. -/
theorem stepKeepsInv : Obligations.StepKeepsInv := by
  intro s t hinv hstep
  obtain ⟨u, hu, hkept⟩ := perform_keeps_blockInv (s := s.takeTransaction) hinv s.nextTransaction
  obtain rfl := Host.Outcome.next.inj (hstep.symm.trans hu)
  exact hkept

end Sys2Proof.Machine
end

section
/-! SUPPORT. Errors and asynchronous inputs (60_exceptions.md R100, R105, R110, R112): the one state a faulting Step can
leave, what a Tick and a run of Ticks do to the timers, and what a key press does outside a wait. -/

namespace Sys2Proof.Machine

/-! ## Faults (60_exceptions.md R100, R105) -/

/-- The block after a Step that faults: PC two further on, the record in RUN, the Step off the schedule. -/
theorem State.takeTransaction_advancePc_raiseFault (s : State) (code : FaultCode) (w : Word) :
    s.takeTransaction.advancePc.raiseFault code w =
      { s with pc := s.pc + 2, run := .halted code s.pc w, schedule := s.schedule.tail } :=
  s.takeTransaction.advancePc_raiseFault code w

/-- Of the ways an instruction may leave RUN, only its own fault halts a running block. -/
theorem exec_eq_raiseFault_of_halted {i : Instr} {s t : State} {code : FaultCode} {p w : Word}
    (hrun : s.run = .running) (hexec : exec i s = .next t) (hhalt : t.run = .halted code p w) :
    t = s.raiseFault code (encode i) := by
  obtain ⟨t', hexec', hleaves⟩ := exec_leavesRun i s
  obtain rfl := Host.Outcome.next.inj (hexec.symm.trans hexec')
  cases hleaves with
  | kept hkept _ => cases hhalt.symm.trans (hkept.trans hrun)
  | waits _ => cases hhalt
  | faults _ => cases hhalt; rfl

/-- A Step that halts a running block raised its fault with PC advanced and the fetched word, whether the word was
unknown or its instruction faulted. -/
theorem step_eq_raiseFault_of_halted {s t : State} {code : FaultCode} {p w : Word} (hrun : s.run = .running)
    (hnext : s.nextTransaction = .step) (hstep : step s = .next t) (hhalt : t.run = .halted code p w) :
    t = s.takeTransaction.advancePc.raiseFault code s.fetchWord := by
  cases hdec : decodeWord s.fetchWord with
  | ok i =>
    obtain ⟨-, hencode⟩ := encodeOfDecodeIsIdentity _ _ hdec
    have hexec := (step_of_decode s i hrun hnext hdec).symm.trans hstep
    rw [← hencode]
    exact exec_eq_raiseFault_of_halted hrun hexec hhalt
  | error e =>
    obtain rfl := Host.Outcome.next.inj ((step_of_reject s e hrun hnext hdec).symm.trans hstep)
    cases hhalt
    rfl

/-- Settles O11: the state a faulting Step leaves is determined by its code, and its record is the address and word
fetched. -/
theorem faultsArePrecise : Obligations.FaultsArePrecise := by
  intro s t code p w hrun hnext hstep hhalt
  obtain rfl := step_eq_raiseFault_of_halted hrun hnext hstep hhalt
  rw [s.takeTransaction_advancePc_raiseFault] at hhalt ⊢
  cases hhalt
  exact ⟨rfl, rfl, s.advancePc_pc_toNat, rfl⟩

/-- Settles O10: a word of no row is rejected, and the Step that fetches it raises the fault. -/
theorem unknownOpcodeIsFatal : Obligations.UnknownOpcodeIsFatal := by
  intro s hrun hnext hnone
  obtain ⟨e, hreject⟩ := (decodeWord_error_iff_selects_none s.fetchWord).mpr hnone
  refine ⟨_, step_of_reject s e hrun hnext hreject, ?_⟩
  rw [s.takeTransaction_advancePc_raiseFault]
  exact ⟨rfl, rfl⟩

/-! ## Ticks (60_exceptions.md R110) -/

section Ticks
variable {s : State} (hnext : s.nextTransaction = .tick)
include hnext

/-- A Tick of a live block is one Tick off its timers, with the count of `State.ticked`. -/
theorem step_tick_of_live (hlive : ¬ Halted s) : step s = .next (s.ticked 1 s.schedule.tail) := by
  rw [step_eq s _ hnext, perform, tick_live s.takeTransaction hlive]
  rfl

theorem step_tick_of_halted (hhalt : Halted s) : step s = .next s.takeTransaction := by
  rw [step_eq s _ hnext, perform, tick_halted s.takeTransaction hhalt]

end Ticks

/-- Settles O15: a Tick acts on both timers of a live block, and on neither of a halted one. -/
theorem tickLowersBothTimers : Obligations.TickLowersBothTimers := by
  intro s hnext
  by_cases hhalt : Halted s
  · exact ⟨_, step_tick_of_halted hnext hhalt, rfl, fun hlive => absurd hhalt hlive, fun _ => ⟨rfl, rfl⟩⟩
  · refine ⟨_, step_tick_of_live hnext hhalt, rfl, fun _ => ?_, fun h => absurd h hhalt⟩
    exact ⟨ticked_timer_toNat s.dt 1, ticked_timer_toNat s.st 1⟩

/-- Counts of Ticks add up. -/
theorem State.ticked_ticked (s : State) (m n : Nat) (rest rest' : List Transaction) :
    (s.ticked m rest).ticked n rest' = s.ticked (m + n) rest' := by
  simp only [State.ticked, ticked_timer_toNat, Nat.sub_sub]

/-- A live block with nothing but n Ticks ahead of it takes them all. -/
theorem run_ticks (n : Nat) (s : State) (hlive : ¬ Halted s) (hschedule : s.schedule = List.replicate n .tick) :
    core.run n s = .next (s.ticked n []) := by
  induction n generalizing s with
  | zero =>
    have hempty : s.ticked 0 [] = s := by simpa [hschedule] using s.ticked_zero
    rw [hempty]
    rfl
  | succ n ih =>
    have htail : s.schedule.tail = List.replicate n .tick := by rw [hschedule]; rfl
    have hstep := step_tick_of_live (State.nextTransaction_of_schedule_eq_cons hschedule) hlive
    have hrest := ih (s.ticked 1 s.schedule.tail) hlive htail
    rw [run_succ_of_step s n _ hstep, hrest, State.ticked_ticked, Nat.add_comm]

/-- Settles O16: n Ticks take n off each timer, clamped at 0. -/
theorem ticksReachZeroAndStay : Obligations.TicksReachZeroAndStay := by
  intro n s hlive hschedule
  exact ⟨_, run_ticks n s hlive hschedule, rfl, ticked_timer_toNat s.dt n, ticked_timer_toNat s.st n⟩

/-! ## Key presses (60_exceptions.md R112) -/

theorem step_keyPress_of_not_awaitKey {s : State} {k : Key} (hnowait : ∀ r, s.run ≠ .awaitKey r)
    (hnext : s.nextTransaction = .keyPress k) : step s = .next s.takeTransaction := by
  rw [step_eq s _ hnext, perform, keyPress_dropped s.takeTransaction k hnowait]

/-- Settles O17: a press in a wait is one register write and the return to RUNNING; any other press is dropped. -/
theorem keyPressEndsOnlyAWait : Obligations.KeyPressEndsOnlyAWait := by
  intro s k hnext
  by_cases hwaits : ∃ r, s.run = .awaitKey r
  · obtain ⟨r, hwait⟩ := hwaits
    refine ⟨_, step_keyPress_of_awaitKey hwait hnext, fun r' hwait' => ?_, fun hnowait => absurd hwait (hnowait r)⟩
    cases hwait.symm.trans hwait'
    exact ⟨rfl, fun j => State.setReg_reg s.takeTransaction r j _⟩
  · have hnowait := not_exists.mp hwaits
    exact ⟨_, step_keyPress_of_not_awaitKey hnowait hnext, fun r hwait => absurd hwait (hnowait r), fun _ => rfl⟩

end Sys2Proof.Machine
end

section
/-! SUPPORT. Reset and the loader, and the block that a jump to itself parks (70_reset_and_hazards.md R119, R120, R122). -/

namespace Sys2Proof.Machine

/-! ## Memory after reset (70_reset_and_hazards.md R119, R120) -/

theorem initialByte_outside_font {a : Nat} (h : ¬ (0x050 ≤ a ∧ a < 0x0A0)) : initialByte a = 0 := dif_neg h

/-- The font covers the whole of what unlisted addresses read as, so its bytes are the construction's. -/
theorem loadedFont_read (c : Construction) (a : Nat) :
    (loadBytes [] Config.fontBase c.font.toList).read a =
      if 0x050 ≤ a ∧ a ≤ 0x09F then c.font.toList.getD (a - 0x050) 0 else 0 := by
  have hrange : (Config.fontBase ≤ a ∧ a < Config.fontBase + c.font.toList.length) ↔ (0x050 ≤ a ∧ a ≤ 0x09F) := by
    simp only [Vector.length_toList, Config.fontBase]; omega
  rw [loadBytes_read, if_congr hrange rfl rfl]
  refine ite_congr rfl (fun _ => rfl) fun houtside => ?_
  exact initialByte_outside_font (by omega)

/-- The image, when it is accepted, over the font. -/
theorem loadedMemory_read (c : Construction) (a : Nat) :
    (loadedMemory c).read a =
      if c.image.length ≤ 3584 ∧ 0x200 ≤ a ∧ a - 0x200 < c.image.length then c.image.getD (a - 0x200) 0
      else (loadBytes [] Config.fontBase c.font.toList).read a := by
  by_cases haccepted : c.image.length ≤ 3584
  · have hrange : (Config.progBase ≤ a ∧ a < Config.progBase + c.image.length) ↔
        (0x200 ≤ a ∧ a - 0x200 < c.image.length) := by
      simp only [Config.progBase]; omega
    rw [loadedMemory, imageAccepted, if_pos (decide_eq_true haccepted), loadBytes_read, if_congr hrange rfl rfl]
    simp only [haccepted, true_and]
  · rw [loadedMemory, imageAccepted, if_neg (by simpa using haccepted), if_neg fun h => haccepted h.1]

section Reset
variable (c : Construction)

theorem resetWith_readByte {a : Nat} (h : a < 4096) : (State.resetWith c).readByte a = (loadedMemory c).read a :=
  congrArg (loadedMemory c).read (Nat.mod_eq_of_lt h)

/-- Below the program area there is the font alone. -/
theorem resetWith_readByte_below {a : Nat} (h : a < 0x200) :
    (State.resetWith c).readByte a = if 0x050 ≤ a ∧ a ≤ 0x09F then c.font.toList.getD (a - 0x050) 0 else 0 := by
  rw [resetWith_readByte c (by omega), loadedMemory_read, if_neg (by omega), loadedFont_read]

/-- From the program area on there is the image, if it is accepted, and then nothing. -/
theorem resetWith_readByte_program {a : Nat} (hprog : 0x200 ≤ a) (hmem : a < 4096) :
    (State.resetWith c).readByte a =
      if c.image.length ≤ 3584 ∧ a - 0x200 < c.image.length then c.image.getD (a - 0x200) 0 else 0 := by
  rw [resetWith_readByte c hmem, loadedMemory_read, loadedFont_read, if_neg (by omega : ¬ (0x050 ≤ a ∧ a ≤ 0x09F))]
  simp only [hprog, true_and]

end Reset

/-! ## The first Step after an empty image (70_reset_and_hazards.md R120) -/

theorem resetWith_fetchWord_of_empty {c : Construction} (h : c.image = []) : (State.resetWith c).fetchWord = 0 := by
  have hzero : ∀ a, 0x200 ≤ a → a < 4096 → (State.resetWith c).readByte a = 0 := fun a hprog hmem => by
    rw [resetWith_readByte_program c hprog hmem, if_neg (by simp [h])]
  change wordOfBytes ((State.resetWith c).readByte 0x200) ((State.resetWith c).readByte 0x201) = 0
  rw [hzero 0x200 (by decide) (by decide), hzero 0x201 (by decide) (by decide)]
  rfl

/-- Nothing is scheduled after reset, so the first transaction is a Step, and the word 0 is of no row. -/
theorem step_resetWith_of_empty {c : Construction} (h : c.image = []) :
    step (State.resetWith c) =
      .next ((State.resetWith c).takeTransaction.advancePc.raiseFault .unknownOpcode 0) := by
  have haccepted : c.image.length ≤ 3584 := by simp [h]
  have hword := resetWith_fetchWord_of_empty h
  have hunknown : decodeWord (State.resetWith c).fetchWord = .error .unknownOpcode := by rw [hword]; decide
  rw [step_of_reject _ _ (resetRun_of_accepted haccepted) rfl hunknown, hword]

/-- Settles O2: the three clauses are the three images the loader may be given, one that fits, a longer one and none. -/
theorem loaderCopiesOrRejectsImage : Obligations.LoaderCopiesOrRejectsImage := by
  intro c
  refine ⟨fun haccepted => ⟨resetRun_of_accepted haccepted, fun j hj => ?_, fun a habove hmem => ?_⟩,
    fun hlong => ⟨resetRun_of_rejected (by omega), fun a hprog hmem => ?_⟩, fun hempty => ?_⟩
  · rw [resetWith_readByte_program c (by omega) (by omega), Nat.add_sub_cancel_left, if_pos ⟨haccepted, hj⟩]
  · rw [resetWith_readByte_program c (by omega) hmem, if_neg (by omega)]
  · rw [resetWith_readByte_program c hprog hmem, if_neg (by omega)]
  · refine ⟨_, step_resetWith_of_empty hempty, ?_⟩
    rw [State.takeTransaction_advancePc_raiseFault]
    exact ⟨rfl, rfl⟩

/-! ## The fields after reset (70_reset_and_hazards.md R119) -/

theorem resetWith_reg (c : Construction) (x : Reg) : (State.resetWith c).reg x = 0 :=
  Vector.getElem_replicate x.isLt

theorem resetWith_stack (c : Construction) (k : Fin 16) : (State.resetWith c).stack[k] = 0 :=
  Vector.getElem_replicate k.isLt

/-- A reset from any state is the block that its construction builds; what the block has emitted stays emitted. -/
theorem resetBlock_sameBlock (s : State) :
    SameBlock (State.resetWith s.build) (resetBlock s) ∧ (resetBlock s).out = s.out :=
  ⟨.refl (State.resetWith s.build), rfl⟩

/-- Settles O1: field by field, the framebuffer being the cleared one and memory the loaded one. -/
theorem resetFixesEveryField : Obligations.ResetFixesEveryField := by
  constructor
  · intro c
    refine ⟨resetWith_reg c, rfl, rfl, rfl, resetWith_stack c, rfl, rfl, clearFrame_unlit, rfl, ?_, ?_, ?_⟩
    · exact resetRun_of_accepted
    · exact fun a => resetWith_readByte_below c
    · exact fun a => resetWith_readByte_program c
  · intro s hnext
    exact ⟨_, step_eq s _ hnext, resetBlock_sameBlock s.takeTransaction⟩

/-- Settles O52, by the invariant's parts: the loader's memory is canonical and its RUN true. -/
theorem resetMeetsInv : Obligations.ResetMeetsInv := resetWith_blockInv

/-! ## A jump to itself (70_reset_and_hazards.md R122) -/

/-- The jump takes PC back from where the fetch advanced it. -/
theorem step_selfJump {s : State} {nnn : Addr} (hrun : s.run = .running) (hschedule : s.schedule = [])
    (hpc : s.pc.toNat = nnn.toNat) (hword : s.fetchWord = wordNNN 0x1 nnn) : step s = .next s := by
  have hnext : s.nextTransaction = .step := by rw [State.nextTransaction, hschedule]; rfl
  have hdec : decodeWord s.fetchWord = .ok (.jp nnn) := by rw [hword]; exact decodeWord_encode (.jp nnn) rfl
  have htarget : nnn.setWidth 16 = s.pc :=
    BitVec.eq_of_toNat_eq ((BitVec.toNat_setWidth_of_le (by decide)).trans hpc.symm)
  have htail : s.schedule.tail = s.schedule := by rw [hschedule]; rfl
  calc step s
    _ = .next { s with pc := nnn.setWidth 16, schedule := s.schedule.tail } :=
      (step_of_decode s (.jp nnn) hrun hnext hdec).trans (exec_jp _ nnn)
    _ = .next s := by rw [htarget, htail]

/-- Settles O12: each Step of the parked block gives the block itself. -/
theorem selfJumpParks : Obligations.SelfJumpParks := by
  intro n s nnn hrun hschedule hpc hword
  induction n with
  | zero => rfl
  | succ n ih => rw [run_succ_of_step s n s (step_selfJump hrun hschedule hpc hword), ih]

end Sys2Proof.Machine
end

section
/-! SUPPORT. The canonical form of memory determines the list by its reads (10_state.md section 7; 20_memory.md
section 1; assumption log 5). -/

namespace Sys2Proof.Machine

theorem Memory.wfFrom_cons {lo k : Nat} {b : Byte} {rest : Memory} :
    Memory.wfFrom lo ((k, b) :: rest) = true ↔
      lo ≤ k ∧ k < 4096 ∧ b ≠ initialByte k ∧ Memory.wfFrom (k + 1) rest = true := by
  simp only [Memory.wfFrom, Config.memorySize, Bool.and_eq_true, decide_eq_true_eq, and_assoc]

theorem Memory.read_cons_self (k : Nat) (b : Byte) (rest : Memory) : Memory.read ((k, b) :: rest) k = b := if_pos rfl

theorem Memory.read_cons_of_ne {k a : Nat} (b : Byte) (rest : Memory) (h : k ≠ a) :
    Memory.read ((k, b) :: rest) a = rest.read a := if_neg h

/-- A canonical list reads as initial below the address it starts from. -/
theorem Memory.read_of_lt {m : Memory} {lo a : Nat} (hwf : m.wfFrom lo = true) (ha : a < lo) :
    m.read a = initialByte a := by
  induction m generalizing lo with
  | nil => rfl
  | cons cell rest ih =>
    obtain ⟨k, b⟩ := cell
    obtain ⟨hlo, -, -, hrest⟩ := Memory.wfFrom_cons.mp hwf
    rw [Memory.read_cons_of_ne b rest (by omega)]
    exact ih hrest (by omega)

/-- Two lists read alike at every address of memory. -/
def Memory.ReadAlike (m m' : Memory) : Prop := ∀ a, a < 4096 → m.read a = m'.read a

/-- The first cell of a canonical list shows in a read, so no list that starts after it reads alike. -/
theorem Memory.not_readAlike_of_lt {rest m : Memory} {lo lo' k : Nat} {b : Byte}
    (hcell : Memory.wfFrom lo ((k, b) :: rest) = true) (hwf : m.wfFrom lo' = true) (hk : k < lo') :
    ¬ Memory.ReadAlike ((k, b) :: rest) m := by
  intro halike
  obtain ⟨-, hmem, hinitial, -⟩ := Memory.wfFrom_cons.mp hcell
  have hread := halike k hmem
  rw [Memory.read_cons_self, Memory.read_of_lt hwf hk] at hread
  exact hinitial hread

theorem Memory.ReadAlike.symm {m m' : Memory} (halike : m.ReadAlike m') : m'.ReadAlike m :=
  fun a ha => (halike a ha).symm

/-- Two canonical lists that read alike start at the same cell. -/
theorem Memory.ReadAlike.head_eq {lo lo' k k' : Nat} {b b' : Byte} {rest rest' : Memory}
    (hwf : Memory.wfFrom lo ((k, b) :: rest) = true) (hwf' : Memory.wfFrom lo' ((k', b') :: rest') = true)
    (halike : Memory.ReadAlike ((k, b) :: rest) ((k', b') :: rest')) : k = k' ∧ b = b' := by
  have ⟨_, hmem, hinitial, hrest⟩ := Memory.wfFrom_cons.mp hwf
  have ⟨_, hmem', hinitial', hrest'⟩ := Memory.wfFrom_cons.mp hwf'
  have hfrom : Memory.wfFrom k ((k, b) :: rest) = true := Memory.wfFrom_cons.mpr ⟨le_rfl, hmem, hinitial, hrest⟩
  have hfrom' : Memory.wfFrom k' ((k', b') :: rest') = true :=
    Memory.wfFrom_cons.mpr ⟨le_rfl, hmem', hinitial', hrest'⟩
  have hnotlt : ¬ k < k' := fun hlt => Memory.not_readAlike_of_lt hwf hfrom' hlt halike
  have hnotgt : ¬ k' < k := fun hgt => Memory.not_readAlike_of_lt hwf' hfrom hgt halike.symm
  obtain rfl : k = k' := by omega
  have hread := halike k hmem
  rw [Memory.read_cons_self, Memory.read_cons_self] at hread
  exact ⟨rfl, hread⟩

/-- What follows equal first cells reads alike: elsewhere as before, and at that cell as initial in both. -/
theorem Memory.ReadAlike.tail {k : Nat} {b : Byte} {rest rest' : Memory} (hrest : rest.wfFrom (k + 1) = true)
    (hrest' : rest'.wfFrom (k + 1) = true) (halike : Memory.ReadAlike ((k, b) :: rest) ((k, b) :: rest')) :
    rest.ReadAlike rest' := by
  intro a ha
  by_cases hka : k = a
  · subst hka
    rw [Memory.read_of_lt hrest (Nat.lt_succ_self k), Memory.read_of_lt hrest' (Nat.lt_succ_self k)]
  · have hread := halike a ha
    rwa [Memory.read_cons_of_ne b rest hka, Memory.read_cons_of_ne b rest' hka] at hread

theorem Memory.eq_of_readAlike {m m' : Memory} {lo lo' : Nat} (hwf : m.wfFrom lo = true) (hwf' : m'.wfFrom lo' = true)
    (halike : m.ReadAlike m') : m = m' := by
  induction m generalizing m' lo lo' with
  | nil =>
    cases m' with
    | nil => rfl
    | cons cell' rest' =>
      exact absurd halike.symm (Memory.not_readAlike_of_lt (m := []) hwf' rfl (Nat.lt_succ_self cell'.1))
  | cons cell rest ih =>
    cases m' with
    | nil => exact absurd halike (Memory.not_readAlike_of_lt (m := []) hwf rfl (Nat.lt_succ_self cell.1))
    | cons cell' rest' =>
      obtain ⟨k, b⟩ := cell
      obtain ⟨k', b'⟩ := cell'
      obtain ⟨rfl, rfl⟩ := halike.head_eq hwf hwf'
      obtain ⟨-, -, -, hrest⟩ := Memory.wfFrom_cons.mp hwf
      obtain ⟨-, -, -, hrest'⟩ := Memory.wfFrom_cons.mp hwf'
      rw [ih hrest hrest' (halike.tail hrest hrest')]

/-- Settles O34, by induction on the two lists: their first cells agree, and so do the lists after them. -/
theorem memoriesThatReadAlikeAreEqual : Obligations.MemoriesThatReadAlikeAreEqual :=
  fun _ _ hwf hwf' halike => Memory.eq_of_readAlike hwf hwf' halike

end Sys2Proof.Machine
end

section
/-! SUPPORT. A sprite drawn twice (41_display.md R61 to R64; 90_conflicts.md C7): the second draw toggles the same cells,
since the first moved neither its origin nor its bytes. -/

namespace Sys2Proof.Machine

theorem Frame.ext_cells {f g : Frame} (h : ∀ (row : Fin 32) (col : Fin 64), f[row][col] = g[row][col]) : f = g :=
  Vector.ext fun r hr => Vector.ext fun c hc => h ⟨r, hr⟩ ⟨c, hc⟩

theorem flagByte_eq_one_iff (c : Bool) : flagByte c = 1 ↔ c = true := by cases c <;> decide

section DrawTwice
variable (s : State) (x y : Reg) (n : BitVec 4)

/-- DXYN's state: the draw's framebuffer, its collision in VF, and the framebuffer presented. -/
def State.drawn : State :=
  ((s.setFb (s.drwDrawing x y n).fb).setReg VF (flagByte (s.drwDrawing x y n).hit)).emit
    (.present (s.drwDrawing x y n).fb)

theorem exec_drw_drawn : exec (.drw x y n) s = .next (s.drawn x y n) := exec_drw s x y n

theorem State.drawn_cell (row : Fin 32) (col : Fin 64) :
    (s.drawn x y n).cell row col = Bool.xor (s.cell row col) (drwPixel s x y n row col) :=
  s.drwDrawing_cell x y n row col

theorem State.drawn_reg_of_ne {k : Reg} (hk : k ≠ VF) : (s.drawn x y n).reg k = s.reg k := by
  simp [State.drawn, hk]

theorem State.drawn_flag_iff :
    (s.drawn x y n).reg VF = 1 ↔ ∃ row col, s.cell row col = true ∧ drwPixel s x y n row col = true := by
  rw [← s.drwDrawing_hit_iff, ← flagByte_eq_one_iff]
  simp [State.drawn]

variable {x y}

/-- A draw writes no register but VF, so a sprite whose coordinates are elsewhere keeps its pixels. -/
theorem State.drawn_drwPixel (hx : x ≠ VF) (hy : y ≠ VF) :
    drwPixel (s.drawn x y n) x y n = drwPixel s x y n := by
  funext row col
  rw [drwPixel, drwPixel, s.drawn_reg_of_ne x y n hx, s.drawn_reg_of_ne x y n hy]
  rfl

theorem State.drawn_drawn_fb (hx : x ≠ VF) (hy : y ≠ VF) : ((s.drawn x y n).drawn x y n).fb = s.fb := by
  refine Frame.ext_cells fun row col => ?_
  change ((s.drawn x y n).drawn x y n).cell row col = s.cell row col
  rw [State.drawn_cell, State.drawn_cell, s.drawn_drwPixel n hx hy, Bool.xor_assoc, Bool.xor_self, Bool.xor_false]

/-- After the first draw a cell under a pixel is lit exactly when it was unlit before. -/
theorem State.drawn_drawn_flag_iff (hx : x ≠ VF) (hy : y ≠ VF) :
    ((s.drawn x y n).drawn x y n).reg VF = 1 ↔
      ∃ row col, s.cell row col = false ∧ drwPixel s x y n row col = true := by
  rw [State.drawn_flag_iff, s.drawn_drwPixel n hx hy]
  refine exists_congr fun row => exists_congr fun col => and_congr_left fun hpixel => ?_
  rw [State.drawn_cell, hpixel, Bool.xor_true, Bool.not_eq_true']

end DrawTwice

/-- Settles O43: the two draws toggle the same cells, so the second undoes the first. -/
theorem drawTwiceRestores : Obligations.DrawTwiceRestores := by
  intro s x y n hx hy
  exact ⟨_, _, exec_drw_drawn s x y n, exec_drw_drawn _ x y n, s.drawn_drawn_fb n hx hy, s.drawn_drawn_flag_iff n hx hy⟩

end Sys2Proof.Machine
end

section
/-! SUPPORT. What no instruction does (10_state.md sections 2 to 10; 60_exceptions.md section 2): every instruction and
every step answers with a next state, and each part of the state changes by its named writers only. -/

namespace Sys2Proof.Machine

/-! ## Every transaction answers (60_exceptions.md section 2) -/

theorem exec_answers_next (i : Instr) (s : State) : ∃ t, exec i s = .next t := by
  obtain ⟨t, ht, -⟩ := exec_sameConstruction i s
  exact ⟨t, ht⟩

theorem perform_answers_next (tr : Transaction) (s : State) : ∃ t, perform tr s = .next t := by
  cases tr with
  | step =>
    obtain ⟨t, ht, -⟩ := engineStep_sameConstruction s
    exact ⟨t, ht⟩
  | tick | keyPress | setKeys | reset => exact ⟨_, rfl⟩

/-- Settles O47: a step is one transaction, and every transaction answers with a next state. -/
theorem everyStepAnswersNext : Obligations.EveryStepAnswersNext :=
  ⟨exec_answers_next, fun s => perform_answers_next s.nextTransaction s.takeTransaction⟩

/-! ## The writers of the general registers (10_state.md sections 2 and 9) -/

/-- Every general register outside the list is the same in both states. -/
def RegsChangeOnlyIn (regs : List Reg) (s t : State) : Prop := ∀ k, k ∉ regs → t.reg k = s.reg k

theorem RegsChangeOnlyIn.of_v_eq {regs : List Reg} {s t : State} (h : t.v = s.v) : RegsChangeOnlyIn regs s t :=
  fun k _ => congrArg (fun v : Vector Byte 16 => v[k]) h

theorem State.setReg_regsChangeOnlyIn {s t : State} (x : Reg) (b : Byte) (h : t.v = s.v) :
    RegsChangeOnlyIn [x] s (t.setReg x b) := by
  intro k hk
  rw [State.setReg_reg, if_neg (List.ne_of_not_mem_cons hk)]
  exact congrArg (fun v : Vector Byte 16 => v[k]) h

theorem State.setRegFlag_regsChangeOnlyIn (s : State) (x : Reg) (b : Byte) (f : Bool) :
    RegsChangeOnlyIn [x, VF] s (s.setRegFlag x b f) := by
  intro k hk
  obtain ⟨-, hother, -⟩ := s.setRegFlag_flagWritten x b f
  obtain ⟨hkx, hkF⟩ := List.ne_and_not_mem_of_not_mem_cons hk
  exact hother k hkx (List.ne_of_not_mem_cons hkF)

theorem loadRegs_regsChangeOnlyIn (s : State) (x : Reg) :
    RegsChangeOnlyIn (destRegs (.loadRegs x)) s ((loadFirst (x.val + 1) s).bumpI x) := by
  intro k hk
  have habove : ¬ k ≤ x := by simpa [destRegs] using hk
  rw [loadRegs_reg, if_neg habove]

@[simp] theorem storeFirst_v (n : Nat) (s : State) : (storeFirst n s).v = s.v := by rw [storeFirst_only_mem]

/-- Every instruction answers with a next state that differs in its destination registers only. -/
theorem exec_regsChangeOnlyIn (i : Instr) (s : State) :
    ∃ t, exec i s = .next t ∧ RegsChangeOnlyIn (destRegs i) s t := by
  cases i with
  | ldByte | addByte | ldReg | orReg | andReg | xorReg | rnd | ldVxDT =>
    exact ⟨_, rfl, State.setReg_regsChangeOnlyIn _ _ rfl⟩
  | addReg | subReg | shr | subn | shl => exact ⟨_, rfl, s.setRegFlag_regsChangeOnlyIn _ _ _⟩
  | drw x y n => exact ⟨_, exec_drw s x y n, State.setReg_regsChangeOnlyIn (t := s.setFb _) VF _ rfl⟩
  | loadRegs x => exact ⟨_, exec_loadRegs s x, loadRegs_regsChangeOnlyIn s x⟩
  | storeRegs x => exact ⟨_, exec_storeRegs s x, .of_v_eq ((State.bumpI_v _ x).trans (storeFirst_v _ s))⟩
  | ret | call => simp only [exec, execRet, execCall]; split <;> exact ⟨_, rfl, .of_v_eq rfl⟩
  | skp | sknp =>
    simp only [exec, execSkp, execSknp]; split
    · exact ⟨_, rfl, .of_v_eq rfl⟩
    · exact ⟨_, rfl, .of_v_eq (s.skipIf_v _)⟩
  | seByte | sneByte | seReg | sneReg => exact ⟨_, rfl, .of_v_eq (s.skipIf_v _)⟩
  | cls | jp | ldI | jpV0 | ldVxK | ldDTVx | ldSTVx | addI | ldF | ldB => exact ⟨_, rfl, .of_v_eq rfl⟩

/-- Settles O44: the registers written are the destinations, and every other one is as it was. -/
theorem registersHaveTheirWriters : Obligations.RegistersHaveTheirWriters := by
  intro i s t ht
  obtain ⟨u, hu, hchanges⟩ := exec_regsChangeOnlyIn i s
  obtain rfl := Host.Outcome.next.inj (ht.symm.trans hu)
  exact hchanges

/-! ## The writers of all other state (10_state.md sections 3 to 10; 60_exceptions.md section 2) -/

/-- What an instruction may do beside the general registers and memory: nothing, or one kind of write, with the
instructions that make it. -/
inductive Effect (i : Instr) (s : State) : State → Prop
  | data {v mem} : Effect i s { s with v := v, mem := mem }
  | index {v mem a} (hi : ∃ x nnn, i = .ldI nnn ∨ i = .addI x ∨ i = .ldF x ∨
      (s.quirks.incrementI = true ∧ (i = .storeRegs x ∨ i = .loadRegs x))) :
      Effect i s { s with v := v, mem := mem, i := a }
  | skips : Effect i s { s with pc := s.pc + 2 }
  | jumps {a} (hi : ∃ x nnn, i = .jp nnn ∨ i = .jpV0 x nnn) : Effect i s { s with pc := a }
  | calls {a stack sp nnn} (hi : i = .call nnn) (hsp : sp.val = s.sp.val + 1) :
      Effect i s { s with pc := a, stack := stack, sp := sp }
  | returns {a sp} (hi : i = .ret) (hsp : sp.val + 1 = s.sp.val) : Effect i s { s with pc := a, sp := sp }
  | delays {b x} (hi : i = .ldDTVx x) : Effect i s { s with dt := b }
  | sounds {b x} (hi : i = .ldSTVx x) : Effect i s { s with st := b }
  | displays {v fb out} (hi : i = .cls ∨ ∃ x y n, i = .drw x y n) : Effect i s { s with v := v, fb := fb, out := out }
  | draws {v rand draws x nn} (hi : i = .rnd x nn) : Effect i s { s with v := v, rand := rand, draws := draws }
  | waits {x} (hi : i = .ldVxK x) : Effect i s { s with run := .awaitKey x }
  | faults {code} (hi : i = .ret ∨ ∃ x nnn, i = .call nnn ∨ i = .skp x ∨ i = .sknp x) :
      Effect i s (s.raiseFault code (encode i))

theorem State.setRegFlag_effect (i : Instr) (s : State) (x : Reg) (b : Byte) (f : Bool) :
    Effect i s (s.setRegFlag x b f) := by
  rw [State.setRegFlag_only_v]; exact .data

theorem State.skipIf_effect (i : Instr) (s : State) (c : Bool) : Effect i s (s.skipIf c) := by
  cases c with
  | false => exact .data
  | true => exact .skips

theorem exec_ret_effect (s : State) : ∃ t, exec .ret s = .next t ∧ Effect .ret s t := by
  by_cases hsp : s.sp.val = 0
  · exact ⟨_, exec_ret_of_empty s hsp, .faults (.inl rfl)⟩
  · exact ⟨_, exec_ret_of_nonempty s hsp, .returns rfl (Nat.succ_pred hsp)⟩

theorem exec_call_effect (s : State) (nnn : Addr) : ∃ t, exec (.call nnn) s = .next t ∧ Effect (.call nnn) s t := by
  by_cases hsp : s.sp.val < 16
  · exact ⟨_, exec_call_of_room s nnn hsp, .calls rfl rfl⟩
  · exact ⟨_, exec_call_of_full s nnn hsp, .faults (.inr ⟨0, nnn, .inl rfl⟩)⟩

theorem exec_skp_effect (s : State) (x : Reg) : ∃ t, exec (.skp x) s = .next t ∧ Effect (.skp x) s t := by
  rcases Nat.lt_or_ge 15 (s.reg x).toNat with hnokey | hkey
  · exact ⟨_, exec_skp_of_no_key s x hnokey, .faults (.inr ⟨x, 0, .inr (.inl rfl)⟩)⟩
  · exact ⟨_, exec_skp_of_key s x hkey, s.skipIf_effect _ _⟩

theorem exec_sknp_effect (s : State) (x : Reg) : ∃ t, exec (.sknp x) s = .next t ∧ Effect (.sknp x) s t := by
  rcases Nat.lt_or_ge 15 (s.reg x).toNat with hnokey | hkey
  · exact ⟨_, exec_sknp_of_no_key s x hnokey, .faults (.inr ⟨x, 0, .inr (.inr rfl)⟩)⟩
  · exact ⟨_, exec_sknp_of_key s x hkey, s.skipIf_effect _ _⟩

/-- FX55 and FX65 write I with the quirk on, and only then. -/
theorem State.bumpI_effect {i : Instr} {x : Reg} (hi : i = .storeRegs x ∨ i = .loadRegs x) (s : State)
    (v : Vector Byte 16) (mem : Memory) : Effect i s (State.bumpI { s with v := v, mem := mem } x) := by
  unfold State.bumpI
  split
  next hquirk => exact .index ⟨x, 0, .inr (.inr (.inr ⟨hquirk, hi⟩))⟩
  next => exact .data

theorem storeRegs_effect (s : State) (x : Reg) : Effect (.storeRegs x) s ((storeFirst (x.val + 1) s).bumpI x) := by
  rw [storeFirst_only_mem]; exact State.bumpI_effect (.inl rfl) s s.v _

theorem loadRegs_effect (s : State) (x : Reg) : Effect (.loadRegs x) s ((loadFirst (x.val + 1) s).bumpI x) := by
  rw [loadFirst_only_v]; exact State.bumpI_effect (.inr rfl) s _ s.mem

/-- Every instruction answers with a next state that it makes by one of the listed writes. -/
theorem exec_effect (i : Instr) (s : State) : ∃ t, exec i s = .next t ∧ Effect i s t := by
  cases i with
  | ret => exact exec_ret_effect s
  | call nnn => exact exec_call_effect s nnn
  | skp x => exact exec_skp_effect s x
  | sknp x => exact exec_sknp_effect s x
  | storeRegs x => exact ⟨_, exec_storeRegs s x, storeRegs_effect s x⟩
  | loadRegs x => exact ⟨_, exec_loadRegs s x, loadRegs_effect s x⟩
  | seByte | sneByte | seReg | sneReg => exact ⟨_, rfl, s.skipIf_effect _ _⟩
  | addReg | subReg | shr | subn | shl => exact ⟨_, rfl, s.setRegFlag_effect _ _ _ _⟩
  | jp nnn => exact ⟨_, exec_jp s nnn, .jumps ⟨0, nnn, .inl rfl⟩⟩
  | jpV0 x nnn => exact ⟨_, exec_jpV0 s x nnn, .jumps ⟨x, nnn, .inr rfl⟩⟩
  | ldI nnn => exact ⟨_, exec_ldI s nnn, .index ⟨0, nnn, .inl rfl⟩⟩
  | addI x => exact ⟨_, exec_addI s x, .index ⟨x, 0, .inr (.inl rfl)⟩⟩
  | ldF x => exact ⟨_, exec_ldF s x, .index ⟨x, 0, .inr (.inr (.inl rfl))⟩⟩
  | cls => exact ⟨_, exec_cls s, .displays (.inl rfl)⟩
  | drw x y n => exact ⟨_, exec_drw s x y n, .displays (.inr ⟨x, y, n, rfl⟩)⟩
  | rnd => exact ⟨_, rfl, .draws rfl⟩
  | ldVxK => exact ⟨_, rfl, .waits rfl⟩
  | ldDTVx => exact ⟨_, rfl, .delays rfl⟩
  | ldSTVx => exact ⟨_, rfl, .sounds rfl⟩
  | ldByte | addByte | ldReg | orReg | andReg | xorReg | ldVxDT | ldB => exact ⟨_, rfl, .data⟩

/-- Settles O46: each kind of write touches its own parts of the state, so a changed part tells which kind it was. -/
theorem otherStateHasItsWriters : Obligations.OtherStateHasItsWriters := by
  intro i s t ht
  obtain ⟨u, hu, heffect⟩ := exec_effect i s
  obtain rfl := Host.Outcome.next.inj (ht.symm.trans hu)
  cases heffect with
  | data => simp
  | index hi => simp [hi]
  | skips => simp
  | jumps hi => obtain ⟨x, nnn, rfl | rfl⟩ := hi <;> simp
  | calls hi hsp => simp [hi, hsp]
  | returns hi hsp => simp [hi, hsp]
  | delays hi | sounds hi | displays hi | draws hi | waits hi => simp [hi]
  | faults hi => simp [hi]

end Sys2Proof.Machine
end
